-- ==== Sys2Proof/Word.lean ====
section
/-! DEFINITION. The word of the block: every register and every command is one 16-bit value
(spec/00_scope.md R2, spec/20_memory.md R43), and a register index is 4 bits (R40). -/

namespace Sys2Proof

/-- A 16-bit word; bit 0 is the least significant bit (00_scope.md section 5, 20_memory.md R45). -/
abbrev Word := BitVec 16

/-- A host-visible register index, 0 to 15; no other index can be expressed (20_memory.md R40, R43). -/
abbrev RegIndex := BitVec 4

end Sys2Proof
end

