-- ==== Sys2Proof/Syntax.lean ====
section
/-! DEFINITION. The commands: one constructor per row of spec/opcode_table.json (30_encoding.md R61). -/

namespace Sys2Proof

/-- The bit source of MBRUN, SRC = word[0] (30_encoding.md R60, 42_monobit_tester.md R114). -/
inductive Source where
  /-- SRC = 0, source A: the NoiseSampler. -/
  | hardware
  /-- SRC = 1, source B: the StreamExtender. -/
  | stream
deriving DecidableEq, Repr

/-- The ten commands (30_encoding.md R61). No command names a register (20_memory.md R40). -/
inductive Instr where
  /-- NOP (43_selftest_runner.md R134). -/
  | nop
  /-- SAMPLE N, N = word[4:0] (40_noise_sampler.md R88). The operand is any 5-bit number: N = 0 and
  N > 16 are this command with an illegal operand (30_encoding.md R64, R65). -/
  | sample (n : BitVec 5)
  /-- SEED (41_stream_extender.md R101). -/
  | seed
  /-- NEXT (41_stream_extender.md R102). -/
  | next
  /-- MBCLR (42_monobit_tester.md R111). -/
  | mbclr
  /-- MBACC (42_monobit_tester.md R112). -/
  | mbacc
  /-- MBJUDGE (42_monobit_tester.md R113). -/
  | mbjudge
  /-- MBRUN SRC (42_monobit_tester.md R114). -/
  | mbrun (src : Source)
  /-- SELFTEST (43_selftest_runner.md R131). -/
  | selftest
  /-- CLRERR (43_selftest_runner.md R135). -/
  | clrerr
deriving DecidableEq, Repr

end Sys2Proof
end

