-- ==== Sys2Proof/Decode.lean ====
section
/-! DEFINITION. The decoder of command words, total on all 65536 of them, and the encoder (30_encoding.md
R60, R61, R62, R64, R65). The words it rejects are the words R64 refuses with E_ILLEGAL; a SAMPLE word with
an illegal N decodes to SAMPLE and is refused by SAMPLE's own check, E_OPERAND (R65, log 17). -/

namespace Sys2Proof

/-- Why a word is no command (30_encoding.md R64); both are E_ILLEGAL. -/
inductive DecodeError where
  /-- OP = 10 to 15. -/
  | reservedOpcode
  /-- A bit of ARG that must be 0 is 1. -/
  | reservedOperandBits
deriving DecidableEq, Repr

/-- OP = word[15:12] (30_encoding.md R60). -/
def opField (w : Word) : BitVec 4 := w.extractLsb' 12 4

/-- ARG = word[11:0] (30_encoding.md R60). -/
def argField (w : Word) : BitVec 12 := w.extractLsb' 0 12

/-- N = ARG[4:0], unsigned, neither scaled nor biased (30_encoding.md R62). -/
def countField (w : Word) : BitVec 5 := w.extractLsb' 0 5

/-- ARG[11:5], must be 0 in SAMPLE (30_encoding.md R60). -/
def sampleZeroField (w : Word) : BitVec 7 := w.extractLsb' 5 7

/-- ARG[11:1], must be 0 in MBRUN (30_encoding.md R60). -/
def mbrunZeroField (w : Word) : BitVec 11 := w.extractLsb' 1 11

/-- SRC = ARG[0] (30_encoding.md R60, R62). -/
def sourceField (w : Word) : Source := if w.getLsbD 0 then .stream else .hardware

/-- A command without operands: all of ARG must be 0 (30_encoding.md R65). -/
def decodeBare (w : Word) (i : Instr) : Except DecodeError Instr :=
  if argField w = 0#12 then .ok i else .error .reservedOperandBits

/-- SAMPLE: ARG[11:5] must be 0; N is checked when the command is accepted (30_encoding.md R65). -/
def decodeSample (w : Word) : Except DecodeError Instr :=
  if sampleZeroField w = 0#7 then .ok (.sample (countField w)) else .error .reservedOperandBits

/-- MBRUN: ARG[11:1] must be 0 (30_encoding.md R65). -/
def decodeMbrun (w : Word) : Except DecodeError Instr :=
  if mbrunZeroField w = 0#11 then .ok (.mbrun (sourceField w)) else .error .reservedOperandBits

/-- Decode a command word (30_encoding.md R61, R64, R65). -/
def decode (w : Word) : Except DecodeError Instr :=
  match (opField w).toNat with
  | 0 => decodeBare w .nop
  | 1 => decodeSample w
  | 2 => decodeBare w .seed
  | 3 => decodeBare w .next
  | 4 => decodeBare w .mbclr
  | 5 => decodeBare w .mbacc
  | 6 => decodeBare w .mbjudge
  | 7 => decodeMbrun w
  | 8 => decodeBare w .selftest
  | 9 => decodeBare w .clrerr
  | _ => .error .reservedOpcode

/-- SRC as a bit (30_encoding.md R60). -/
def Source.bit (src : Source) : BitVec 1 :=
  match src with
  | .hardware => 0#1
  | .stream => 1#1

/-- The word of a command: OP in 15:12, its operand below, every other bit 0 (30_encoding.md R60, R61). -/
def encode (i : Instr) : Word :=
  match i with
  | .nop => 0x0#4 ++ 0#12
  | .sample n => 0x1#4 ++ 0#7 ++ n
  | .seed => 0x2#4 ++ 0#12
  | .next => 0x3#4 ++ 0#12
  | .mbclr => 0x4#4 ++ 0#12
  | .mbacc => 0x5#4 ++ 0#12
  | .mbjudge => 0x6#4 ++ 0#12
  | .mbrun src => 0x7#4 ++ 0#11 ++ src.bit
  | .selftest => 0x8#4 ++ 0#12
  | .clrerr => 0x9#4 ++ 0#12

/-- The command word made of the low `nbits` of `w`, the bits above them 0. A command is one 16-bit value
written whole, so no byte order enters (20_memory.md R45, 30_encoding.md R60; log 24). -/
def tableWord (nbits w : Nat) : Word := BitVec.ofNat 16 (w % 2 ^ nbits)

/-- The instruction the decoder reads from a word numbered as spec/opcode_table.json numbers its bits. -/
def decodeTableWord (nbits w : Nat) : Option Instr := (decode (tableWord nbits w)).toOption

end Sys2Proof
end

