-- ==== Sys2Proof/Config.lean ====
section
/-! DEFINITION. What the spec fixes (00_scope.md R2), what it leaves to the implementation (R3, R5) and
the free values (20_memory.md R47, 40_noise_sampler.md R92). An opaque constant here has no body: nothing
in Lean can evaluate it, so whatever is proved holds for every value it may have. -/

namespace Sys2Proof

/-- What a platform says of its timer's configurations beside CFG_CAPTURE (00_scope.md R5): any type at all, with
decidable equality, and with a way to print a value, which every type has and no claim can use (log 4). The default
values only show that there is such a platform. -/
structure TimerPlatform where
  Other : Type := Empty
  dec : DecidableEq Other := by infer_instance
  print : Repr Other := by infer_instance
deriving Inhabited

/-- The configurations of a platform's timer: CFG_CAPTURE and the others. Every type with decidable equality and a
chosen element is of this form (`PlatformCfg.covers`). -/
inductive PlatformCfg (p : TimerPlatform) {_ : DecidableEq p.Other} {_ : Repr p.Other} where
  /-- The chosen element, CFG_CAPTURE (00_scope.md R5). -/
  | capture
  /-- Any other configuration. -/
  | other (cfg : p.Other)
deriving DecidableEq, Repr, Inhabited

/-- The configurations of a platform, under the platform's own equality and printing. -/
abbrev TimerPlatform.Cfg (p : TimerPlatform) : Type := @PlatformCfg p p.dec p.print

/-- The platform the block stands on, the model's argument for R5. DESIGN CHOICE: left free (log 4). -/
opaque Config.timerPlatform : TimerPlatform

/-- TimerCfg: everything `save_config()` returns and `restore_config()` writes back (00_scope.md R5), an open type
of which only decidable equality is known (log 4). -/
abbrev TimerCfg : Type := Config.timerPlatform.Cfg

/-- The three numbers of one instantiation of the monobit test (00_scope.md R3). -/
structure TestCfg where
  /-- BITS_x, `bits_per_draw`. -/
  bits : Nat
  /-- DRAWS_x, `num_draws`. -/
  draws : Nat
  /-- BOUND_x, `max_abs_sum`. -/
  bound : Nat
deriving DecidableEq, Repr

namespace Config

/-- LCG_M = 49381 = 0xC0E5 (00_scope.md R2). -/
def lcgM : Nat := 49381
/-- LCG_I = 8643 = 0x21C3 (00_scope.md R2). -/
def lcgI : Nat := 8643
/-- VOTES: draws per voted bit (00_scope.md R2). -/
def votes : Nat := 5
/-- THRESH: ones among them that make a 1 (00_scope.md R2). -/
def thresh : Nat := 3
/-- Maximum bits per sample (00_scope.md R2). -/
def maxSample : Nat := 16
/-- The OR mask of the sampler (00_scope.md R2). -/
def orMask : Word := 0x8000#16
/-- The most bits one monobit test may hold (10_state.md R20, R21). -/
def maxTestBits : Nat := 32767

/-- Open numbers behind CFG_A. DESIGN CHOICE: left free (log 3). -/
opaque openBitsA : Nat
opaque openDrawsA : Nat
opaque openBoundA : Nat
/-- Open numbers behind CFG_B. DESIGN CHOICE: left free (log 3). -/
opaque openBitsB : Nat
opaque openDrawsB : Nat
opaque openBoundB : Nat

/-- A triple brought within the constraints of 00_scope.md R3: 1 <= BITS <= top, BITS * DRAWS <= 32767,
BOUND <= 65535. Every triple within them is the image of some open numbers (BITS - 1, DRAWS, BOUND). -/
def constrained (top bits draws bound : Nat) : TestCfg :=
  { bits := bits % top + 1
    draws := draws % (maxTestBits / (bits % top + 1) + 1)
    bound := bound % 65536 }

/-- CFG_A, the configuration over the hardware source (00_scope.md R3: 1 <= BITS_A <= 16). -/
def cfgA : TestCfg := constrained 16 openBitsA openDrawsA openBoundA

/-- CFG_B, the configuration over the stream (00_scope.md R3: 1 <= BITS_B <= 8). -/
def cfgB : TestCfg := constrained 8 openBitsB openDrawsB openBoundB

/-- CFG_CAPTURE, what `configure_capture()` installs (00_scope.md R5): the chosen element of the platform's
open type (log 4). -/
def cfgCapture : TimerCfg := .capture

/-- What SNAP holds right after reset, unspecified (10_state.md R26, R33, U7). DESIGN CHOICE: left free (log 5). -/
opaque snapAtReset : TimerCfg

/-- The timer's configuration before the environment acts (40_noise_sampler.md R80). DESIGN CHOICE: left free
(log 6). -/
opaque timerAtReset : TimerCfg

/-- The unspecified value of a host read while BUSY = 1, one per use (20_memory.md R47, U3; log 8). -/
opaque freeRead : Nat → Word

/-- TFLAG after `restore_config`, unspecified (40_noise_sampler.md R92, U6; log 7). That it does not depend on the
snapshot restored is the model's choice (log 27). -/
opaque freeFlag : Nat → Bool

/-- TLSB after `restore_config`, unspecified (40_noise_sampler.md R92, U6; log 7). That it does not depend on the
snapshot restored is the model's choice (log 27). -/
opaque freeLsb : Nat → Bool

end Config

end Sys2Proof
end

