-- ==== Sys2Proof/Machine/State.lean ====
section
/-! DEFINITION. The state of the machine: the block's registers, visible and hidden (10_state.md R10 to R29),
the environment's timer (40_noise_sampler.md R80), and what the agents do next (log 1). Plain data. -/

namespace Sys2Proof.Machine

/-- PHASE, the state of the SelfTestRunner; the codes 5 to 7 are never held (10_state.md R14). -/
inductive Phase where
  | idle
  | samplingSeed
  | testingHardwareSource
  | testingStream
  | done
deriving DecidableEq, Repr

/-- MBRES, the verdict of the monobit tester; the code 3 is never held (10_state.md R18). -/
inductive Verdict where
  | none
  | pass
  | fail
deriving DecidableEq, Repr

/-- ERR, the first refusal since reset or CLRERR; the codes 6 and 7 are never held (10_state.md R19,
60_exceptions.md R154). -/
inductive ErrCode where
  | none
  | busy
  | illegal
  | operand
  | overrun
  | repeated
deriving DecidableEq, Repr

/-- OP, the blocking command in progress (10_state.md R24). -/
inductive BlockingOp where
  | idle
  | sample
  | mbrun
  | selftest
deriving DecidableEq, Repr

/-- The environment's capture timer, not state of the block (10_state.md R31, 40_noise_sampler.md R80). -/
structure Timer where
  /-- TCFG, its whole configuration as `save_config()` sees it. -/
  tcfg : TimerCfg
  /-- TFLAG, the capture-complete condition. -/
  tflag : Bool
  /-- TLSB, the least-significant bit of the captured count of the most recent capture. -/
  tlsb : Bool
deriving DecidableEq, Repr

/-- One turn of one agent (log 1). -/
inductive Event where
  /-- The host's `MemWrite(index, 2, value)` (20_memory.md R42). -/
  | write (index : RegIndex) (value : Word)
  /-- The host's `MemRead(index, 2)` (20_memory.md R41). -/
  | read (index : RegIndex)
  /-- The block's own next step (00_scope.md section 6). -/
  | block
  /-- The timer's step `Capture(bit)` (40_noise_sampler.md R87). -/
  | capture (bit : Bool)
  /-- Another consumer leaves the timer in this condition (70_reset_and_hazards.md R174, log 21). -/
  | otherConsumer (timer : Timer)
  /-- `Reset` (70_reset_and_hazards.md R170). -/
  | reset
deriving DecidableEq, Repr

/-- The machine. -/
structure State where
  /-- DATA, index 3 (R11). -/
  data : Word
  /-- LSTATE, index 4 (R12). -/
  lstate : Word
  /-- SUM, index 5, signed (R20). -/
  sum : Word
  /-- NBITS, index 6 (R21). -/
  nbits : Word
  /-- DCNT, index 7 (R21). -/
  dcnt : Word
  /-- MBBITS, index 8 (R22). -/
  mbbits : Word
  /-- MBDRAWS, index 9 (R22). -/
  mbdraws : Word
  /-- MBBOUND, index 10 (R22). -/
  mbbound : Word
  /-- SUMA, index 11 (R29). -/
  suma : Word
  /-- SUMB, index 12 (R29). -/
  sumb : Word
  /-- STATUS[1:0], index 2: bit 0 FAIL_A, bit 1 FAIL_B (R23). -/
  status : BitVec 2
  /-- DONE, STAT[1] (R17). -/
  done : Bool
  /-- PHASE, STAT[4:2] (R14). -/
  phase : Phase
  /-- MBRES, STAT[6:5] (R18). -/
  mbres : Verdict
  /-- ERR, STAT[10:8] (R19). -/
  err : ErrCode
  /-- OP, hidden (R24); BUSY is `op ≠ idle` (R16). -/
  op : BlockingOp
  /-- SR, hidden (R25). -/
  sr : Word
  /-- ONES, hidden (R25). -/
  ones : BitVec 3
  /-- DRAWJ, hidden (R25). -/
  drawj : BitVec 3
  /-- BITI, hidden (R25). -/
  biti : BitVec 5
  /-- NREQ, hidden (R25). -/
  nreq : BitVec 5
  /-- SNAP, hidden (R26). -/
  snap : TimerCfg
  /-- RUNCNT, hidden (R27). -/
  runcnt : Word
  /-- RUNSRC, hidden (R27). -/
  runsrc : Source
  /-- FA, hidden (R28). -/
  fa : Bool
  /-- FB, hidden (R28). -/
  fb : Bool
  /-- The environment's timer (R31). -/
  timer : Timer
  /-- The MODEL's own: the agents' next turns, first to come first; empty gives the block its turn (log 1). -/
  pending : List Event
  /-- The MODEL's own: the value the last host read delivered (log 14). -/
  rdata : Word
  /-- The MODEL's own: the index of the next free value (log 18). -/
  freeCount : Nat
deriving DecidableEq, Repr

/-- The block has no trap and no error that stops it: 60_exceptions.md R157, R158. No step of the model
raises a fault, so the type has no constructor (DEDUCED, safe; log 12). -/
inductive Fault where
deriving DecidableEq, Repr

/-- Why a step has no meaning. -/
inductive Refusal where
  /-- A command without a meaning, rejected by name in `exec`; safe. No arm raises it: every command of the
  table has its meaning. -/
  | notModelled (mnemonic : String)
  /-- Another consumer acts on the timer while a SAMPLE owns it: the spec gives the environment no such step
  (70_reset_and_hazards.md R174, 93_implementation_defined.md U9). Raised by the event `otherConsumer`; safe
  (log 10). -/
  | timerOwned
deriving DecidableEq, Repr

/-- The machine right after reset (10_state.md R33): all 0 but MBBITS, MBDRAWS, MBBOUND, which hold CFG_A.
SNAP is named by log 5, the timer by log 6, the model's own fields by logs 1, 14 and 18. -/
def State.reset : State :=
  { data := 0#16
    lstate := 0#16
    sum := 0#16
    nbits := 0#16
    dcnt := 0#16
    mbbits := BitVec.ofNat 16 Config.cfgA.bits
    mbdraws := BitVec.ofNat 16 Config.cfgA.draws
    mbbound := BitVec.ofNat 16 Config.cfgA.bound
    suma := 0#16
    sumb := 0#16
    status := 0#2
    done := false
    phase := .idle
    mbres := .none
    err := .none
    op := .idle
    sr := 0#16
    ones := 0#3
    drawj := 0#3
    biti := 0#5
    nreq := 0#5
    snap := Config.snapAtReset
    runcnt := 0#16
    runsrc := .hardware
    fa := false
    fb := false
    timer := { tcfg := Config.timerAtReset, tflag := false, tlsb := false }
    pending := []
    rdata := 0#16
    freeCount := 0 }

end Sys2Proof.Machine
end

