-- ==== Sys2Proof/Machine/Flags.lean ====
section
/-! DEFINITION. The flags and what is read from them: the codes of STAT's fields, STAT and STATUS as words, the
tester's verdict, the outputs (10_state.md R14 to R19, R23; 42_monobit_tester.md R113; 20_memory.md R53). -/

namespace Sys2Proof.Machine

/-- PHASE as STAT[4:2] (10_state.md R14). -/
def Phase.code (p : Phase) : BitVec 3 :=
  match p with
  | .idle => 0#3
  | .samplingSeed => 1#3
  | .testingHardwareSource => 2#3
  | .testingStream => 3#3
  | .done => 4#3

/-- MBRES as STAT[6:5] (10_state.md R18). -/
def Verdict.code (v : Verdict) : BitVec 2 :=
  match v with
  | .none => 0#2
  | .pass => 1#2
  | .fail => 2#2

/-- ERR as STAT[10:8] (10_state.md R19, 60_exceptions.md R154). -/
def ErrCode.code (e : ErrCode) : BitVec 3 :=
  match e with
  | .none => 0#3
  | .busy => 1#3
  | .illegal => 2#3
  | .operand => 3#3
  | .overrun => 4#3
  | .repeated => 5#3

/-- BUSY = 1 exactly when OP is not IDLE (10_state.md R16). -/
def State.busy (s : State) : Bool := s.op != .idle

/-- STAT, assembled at the moment of the read (10_state.md R15): ERR in 10:8, MBRES in 6:5, PHASE in 4:2,
DONE in 1, BUSY in 0, the rest 0. -/
def State.statWord (s : State) : Word :=
  0#5 ++ s.err.code ++ 0#1 ++ s.mbres.code ++ s.phase.code ++ BitVec.ofBool s.done ++ BitVec.ofBool s.busy

/-- STATUS as read by the host: bits 15:2 read 0 (10_state.md R23). -/
def State.statusWord (s : State) : Word := 0#14 ++ s.status

/-- The value STATUS takes at Done: bit 0 = FA, bit 1 = FB (43_selftest_runner.md R131, R133). -/
def publishedStatus (fa fb : Bool) : BitVec 2 := BitVec.ofBool fb ++ BitVec.ofBool fa

/-- The verdict on a sum: FAIL when its absolute value exceeds the bound, read as unsigned; the comparison is
strict (42_monobit_tester.md R113). -/
def verdictOf (sum bound : Word) : Verdict :=
  if bound.toNat < sum.toInt.natAbs then .fail else .pass

/-- The output `busy_o` (20_memory.md R53). -/
def State.busyO (s : State) : Bool := s.busy

/-- The output `done_o` (20_memory.md R53). -/
def State.doneO (s : State) : Bool := s.done

/-- The output `status_o[1:0]` (20_memory.md R53). -/
def State.statusO (s : State) : BitVec 2 := s.status

/-- The event `IndSet(STATUS[1:0])` of the step from `before` to `after`: it happens when `done_o` rises
(60_exceptions.md R162, log 22). -/
def indSet (before after : State) : Option (BitVec 2) :=
  if !before.doneO && after.doneO then some after.statusO else none

end Sys2Proof.Machine
end

