-- ==== Sys2Proof/WellFormed.lean ====
section
/-! DEFINITION. Which commands are well formed: SAMPLE takes 1 to 16 bits, no other command has an operand
that can be illegal (30_encoding.md R62, R64: exactly 26 words are well-formed commands). -/

namespace Sys2Proof

/-- SAMPLE's operand N is legal: 1 to 16 (30_encoding.md R62). -/
def legalCount (n : BitVec 5) : Bool := decide (1 ≤ n.toNat) && decide (n.toNat ≤ Config.maxSample)

/-- The well-formedness check of a command (30_encoding.md R64). -/
def Instr.wellFormed (i : Instr) : Bool :=
  match i with
  | .nop => true
  | .sample n => legalCount n
  | .seed => true
  | .next => true
  | .mbclr => true
  | .mbacc => true
  | .mbjudge => true
  | .mbrun _ => true
  | .selftest => true
  | .clrerr => true

end Sys2Proof
end

