-- ==== Sys2Proof/Machine/Operands.lean ====
section
/-! DEFINITION. The operands of host accesses and of commands: which register an index names (10_state.md R10),
what it holds, and the checks an operand must pass (30_encoding.md R65, 42_monobit_tester.md R119). -/

namespace Sys2Proof.Machine

/-- The registers the host can name (10_state.md R10). -/
inductive Reg where
  | cmd
  | stat
  | status
  | data
  | lstate
  | sum
  | nbits
  | dcnt
  | mbbits
  | mbdraws
  | mbbound
  | suma
  | sumb
  | reserved
deriving DecidableEq, Repr

/-- The register at an index (10_state.md R10; 13, 14 and 15 are reserved, 20_memory.md R46). -/
def regOf (i : RegIndex) : Reg :=
  match i.toNat with
  | 0 => .cmd
  | 1 => .stat
  | 2 => .status
  | 3 => .data
  | 4 => .lstate
  | 5 => .sum
  | 6 => .nbits
  | 7 => .dcnt
  | 8 => .mbbits
  | 9 => .mbdraws
  | 10 => .mbbound
  | 11 => .suma
  | 12 => .sumb
  | _ => .reserved

/-- What a host read of a register gives when BUSY = 0 (20_memory.md R41): CMD and the reserved indices read 0. -/
def State.readReg (s : State) (r : Reg) : Word :=
  match r with
  | .cmd => 0#16
  | .stat => s.statWord
  | .status => s.statusWord
  | .data => s.data
  | .lstate => s.lstate
  | .sum => s.sum
  | .nbits => s.nbits
  | .dcnt => s.dcnt
  | .mbbits => s.mbbits
  | .mbdraws => s.mbdraws
  | .mbbound => s.mbbound
  | .suma => s.suma
  | .sumb => s.sumb
  | .reserved => 0#16

/-- Whether a host read of the register is specified while BUSY = 1: STAT, STATUS, CMD and the reserved indices
(20_memory.md R47 (a), (b), (c)). -/
def Reg.exactWhileBusy (r : Reg) : Bool :=
  match r with
  | .cmd => true
  | .stat => true
  | .status => true
  | .data => false
  | .lstate => false
  | .sum => false
  | .nbits => false
  | .dcnt => false
  | .mbbits => false
  | .mbdraws => false
  | .mbbound => false
  | .suma => false
  | .sumb => false
  | .reserved => true

/-- SAMPLE's operand: 1 to 16 (30_encoding.md R65, OP = 1). -/
def sampleOperandOk (n : BitVec 5) : Bool := legalCount n

/-- A host write to MBBITS is accepted for 1 to 16 (20_memory.md R42, 42_monobit_tester.md R119). -/
def mbbitsWriteOk (v : Word) : Bool := decide (1 ≤ v.toNat) && decide (v.toNat ≤ 16)

/-- MBACC's check: NBITS + MBBITS does not pass 32767 (30_encoding.md R65, OP = 5; unbounded integers). -/
def State.accFits (s : State) : Bool := decide (s.nbits.toNat + s.mbbits.toNat ≤ Config.maxTestBits)

/-- MBRUN's check: MBBITS * MBDRAWS does not pass 32767 (30_encoding.md R65, OP = 7; unbounded integers). -/
def State.runFits (s : State) : Bool := decide (s.mbbits.toNat * s.mbdraws.toNat ≤ Config.maxTestBits)

/-- SELFTEST's check: PHASE is Idle (30_encoding.md R65, OP = 8). -/
def State.selftestFresh (s : State) : Bool := decide (s.phase = .idle)

end Sys2Proof.Machine
end

