-- ==== Sys2Proof/Machine/Ops.lean ====
section
/-! DEFINITION. The shared operations: recording a refusal (60_exceptions.md R155), presenting a command
(30_encoding.md R65), reset (70_reset_and_hazards.md R170, R171), the six operations of the CaptureTimer port
(40_noise_sampler.md R81 to R86), the arithmetic of the generators and of the tester (41_stream_extender.md
R100, 42_monobit_tester.md R110 to R113), and the host's read and write of registers (20_memory.md R41, R42). -/

namespace Sys2Proof.Machine

/-! ## Refusals -/

/-- `raise E`: ERR takes the code if it is 0; nothing else changes (60_exceptions.md R155). It is all the
exception mechanism the block has: no trap entry, no return (R157, R158). -/
def State.raise (s : State) (e : ErrCode) : State :=
  { s with err := if s.err = .none then e else s.err }

/-- The return beside it: CLRERR's effect, ERR <- 0 (43_selftest_runner.md R135). -/
def State.clearErr (s : State) : State := { s with err := .none }

/-- Present a command to the block: refused with E_BUSY while BUSY = 1, else its body runs
(20_memory.md R42, R47; 60_exceptions.md R156; log 16). -/
def present (s : State) (body : State → State) : Host.Outcome State Fault Refusal :=
  .next (if s.busy then s.raise .busy else body s)

/-! ## The schedule -/

/-- The same machine with these turns pending (log 1). -/
def State.withPending (s : State) (turns : List Event) : State := { s with pending := turns }

/-! ## Reset -/

/-- `Reset`: every register of the block, visible and hidden, takes its reset value; the timer keeps its own
(70_reset_and_hazards.md R170, R171). The model's own fields are not the block's and stay (log 18). -/
def State.resetBlock (s : State) : State :=
  { State.reset with timer := s.timer, pending := s.pending, rdata := s.rdata, freeCount := s.freeCount }

/-! ## The CaptureTimer port -/

/-- `SNAP <- T.save_config()` (40_noise_sampler.md R81, R88). -/
def State.saveConfig (s : State) : State := { s with snap := s.timer.tcfg }

/-- `T.configure_capture()`: TFLAG and TLSB stay as they were (40_noise_sampler.md R82). -/
def State.configureCapture (s : State) : State :=
  { s with timer := { s.timer with tcfg := Config.cfgCapture } }

/-- The condition `T.wait_for_capture()` awaits (40_noise_sampler.md R83). -/
def State.captured (s : State) : Bool := s.timer.tflag

/-- `T.clear_capture_flag()` (40_noise_sampler.md R84). -/
def State.clearCaptureFlag (s : State) : State :=
  { s with timer := { s.timer with tflag := false } }

/-- `T.read_capture_lsb()` (40_noise_sampler.md R85). -/
def State.readCaptureLsb (s : State) : Bool := s.timer.tlsb

/-- `T.restore_config(SNAP)`: TCFG <- SNAP (40_noise_sampler.md R86). TFLAG and TLSB after a SAMPLE are
unspecified (R92, U6): free values (log 7). DESIGN CHOICE, unsafe for two-run claims: they depend on `freeCount`
alone and never on SNAP, although a platform's TimerCfg may contain the flags (R80; log 27). -/
def State.restoreConfig (s : State) : State :=
  { s with
    timer := { tcfg := s.snap, tflag := Config.freeFlag s.freeCount, tlsb := Config.freeLsb s.freeCount }
    freeCount := s.freeCount + 1 }

/-- The timer's step `Capture(b)`: TFLAG <- 1, TLSB <- b, at any moment (40_noise_sampler.md R87). -/
def State.capture (s : State) (b : Bool) : State :=
  { s with timer := { s.timer with tflag := true, tlsb := b } }

/-- A SAMPLE is between its first and its last step: a blocking command is in progress and bits are still to be
voted (40_noise_sampler.md R88; 70_reset_and_hazards.md R174). -/
def State.sampling (s : State) : Bool := s.busy && decide (s.biti.toNat < s.nreq.toNat)

/-! ## The stream extender -/

/-- `next(s) = (49381 * s + 8643) mod 65536` (41_stream_extender.md R100). The constant stands first in the sum
so that Lean's unifier does not count it down when it compares two states. -/
def lcgNext (s : Word) : Word := BitVec.ofNat 16 (Config.lcgI + Config.lcgM * s.toNat)

/-- `LSTATE <- DATA`, the load of a seed (41_stream_extender.md R101). -/
def State.loadSeed (s : State) : State := { s with lstate := s.data }

/-- `LSTATE <- next(LSTATE); DATA <- LSTATE` (41_stream_extender.md R102). -/
def State.advanceStream (s : State) : State :=
  { s with lstate := lcgNext s.lstate, data := lcgNext s.lstate }

/-! ## The monobit tester -/

/-- `contrib(w, b)`: +1 for each 1 and -1 for each 0 among the top `b` bits (42_monobit_tester.md R110). -/
def contrib (w : Word) (b : Nat) : Int :=
  match b with
  | 0 => 0
  | k + 1 => contrib w k + (if w.getMsbD k then 1 else -1)

/-- `SUM, NBITS, DCNT <- 0; MBRES <- NONE` (42_monobit_tester.md R111). -/
def State.clearTest (s : State) : State :=
  { s with sum := 0#16, nbits := 0#16, dcnt := 0#16, mbres := .none }

/-- Accumulate the word in DATA (42_monobit_tester.md R112, without the check, which its callers make). -/
def State.accumulate (s : State) : State :=
  { s with
    sum := BitVec.ofInt 16 (s.sum.toInt + contrib s.data s.mbbits.toNat)
    nbits := s.nbits + s.mbbits
    dcnt := s.dcnt + 1#16
    mbres := .none }

/-- Give the verdict on the sum so far (42_monobit_tester.md R113). -/
def State.judge (s : State) : State := { s with mbres := verdictOf s.sum s.mbbound }

/-- `MBBITS, MBDRAWS, MBBOUND <- ` a configuration constant (43_selftest_runner.md R131). -/
def State.loadTestCfg (s : State) (c : TestCfg) : State :=
  { s with
    mbbits := BitVec.ofNat 16 c.bits
    mbdraws := BitVec.ofNat 16 c.draws
    mbbound := BitVec.ofNat 16 c.bound }

/-- MBRUN up to its loop: `RUNSRC <- src; RUNCNT <- MBDRAWS; MBCLR` (42_monobit_tester.md R114). -/
def State.startRun (s : State) (src : Source) : State :=
  { s.clearTest with runsrc := src, runcnt := s.mbdraws }

/-- The end of one turn of MBRUN's loop: `MBACC; RUNCNT <- RUNCNT - 1` (42_monobit_tester.md R114). -/
def State.endDraw (s : State) : State := { s.accumulate with runcnt := s.runcnt - 1#16 }

/-! ## The noise sampler -/

/-- One voted bit enters at bit 15 after a right shift by one (40_noise_sampler.md R88, R90, R91). -/
def shiftVote (sr : Word) (ones : Nat) : Word :=
  if Config.thresh ≤ ones then (sr >>> 1) ||| Config.orMask else sr >>> 1

/-- SAMPLE from its first statement to its first `await`: save, configure, start from `SR = 0`
(40_noise_sampler.md R88, one step). -/
def State.beginSample (s : State) (n : BitVec 5) : State :=
  { s.saveConfig.configureCapture with
    sr := 0#16, biti := 0#5, nreq := n, ones := 0#3, drawj := 0#3 }

/-- SAMPLE after its loops: restore the timer, then `DATA <- SR` (40_noise_sampler.md R88). -/
def State.endSample (s : State) : State := { s.restoreConfig with data := s.sr }

/-- The draw itself: clear the flag, read the bit, count it (40_noise_sampler.md R88, R89). -/
def State.countDraw (s : State) : State :=
  { s.clearCaptureFlag with
    ones := s.ones + BitVec.setWidth 3 (BitVec.ofBool s.readCaptureLsb), drawj := s.drawj + 1#3 }

/-- Five draws are taken: the vote enters SR and the bit is counted (40_noise_sampler.md R88, R90). ONES and
DRAWJ start again from 0 (log 15). -/
def State.shiftBit (s : State) : State :=
  { s with sr := shiftVote s.sr s.ones.toNat, biti := s.biti + 1#5, ones := 0#3, drawj := 0#3 }

/-- After a vote the next bit begins, or all NREQ bits are voted and the SAMPLE ends (40_noise_sampler.md R88). -/
def State.voteBit (s : State) : State :=
  if s.shiftBit.biti.toNat < s.shiftBit.nreq.toNat then s.shiftBit else s.shiftBit.endSample

/-- One draw, its flag being 1, and the vote after the fifth (40_noise_sampler.md R88, R89). -/
def State.takeDraw (s : State) : State :=
  if s.countDraw.drawj.toNat < Config.votes then s.countDraw else s.countDraw.voteBit

/-! ## Host reads and writes -/

/-- The host read of an index: the register, or an unspecified value while BUSY = 1 (20_memory.md R41, R47).
It changes no state of the block; the value is delivered in `rdata`, and a free value is used up (logs 8, 14). -/
def State.memRead (s : State) (i : RegIndex) : State :=
  if s.busy && !(regOf i).exactWhileBusy then
    { s with rdata := Config.freeRead s.freeCount, freeCount := s.freeCount + 1 }
  else
    { s with rdata := s.readReg (regOf i) }

/-- The host write of `v` to a register other than CMD, BUSY being 0 (20_memory.md R42, R46): DATA, MBBITS,
MBDRAWS and MBBOUND store, MBBITS only 1 to 16, every other register ignores the write. -/
def State.writeReg (s : State) (r : Reg) (v : Word) : State :=
  match r with
  | .cmd => s
  | .stat => s
  | .status => s
  | .data => { s with data := v }
  | .lstate => s
  | .sum => s
  | .nbits => s
  | .dcnt => s
  | .mbbits => if mbbitsWriteOk v then { s with mbbits := v } else s.raise .operand
  | .mbdraws => { s with mbdraws := v }
  | .mbbound => { s with mbbound := v }
  | .suma => s
  | .sumb => s
  | .reserved => s

end Sys2Proof.Machine
end

