-- ==== Sys2Proof/Machine/Monobit.lean ====
section
/-! DEFINITION. The monobit tester's commands MBCLR, MBACC, MBJUDGE, MBRUN (42_monobit_tester.md). -/

namespace Sys2Proof.Machine

/-- MBCLR: start a test (42_monobit_tester.md R111). -/
def execMbclr (s : State) : Host.Outcome State Fault Refusal := present s State.clearTest

/-- MBACC: accumulate the word in DATA, or E_OVERRUN past 32767 bits (42_monobit_tester.md R112). -/
def execMbacc (s : State) : Host.Outcome State Fault Refusal :=
  present s fun t => if t.accFits then t.accumulate else t.raise .overrun

/-- MBJUDGE: give the verdict (42_monobit_tester.md R113). -/
def execMbjudge (s : State) : Host.Outcome State Fault Refusal := present s State.judge

/-- MBRUN accepted: OP <- MBRUN and the statements before the loop; the loop's turns are steps of the block
(42_monobit_tester.md R114, 30_encoding.md R65; log 11). -/
def State.acceptMbrun (s : State) (src : Source) : State := { s.startRun src with op := .mbrun }

/-- MBRUN SRC: accepted when MBBITS * MBDRAWS <= 32767, else E_OPERAND (42_monobit_tester.md R114). -/
def execMbrun (src : Source) (s : State) : Host.Outcome State Fault Refusal :=
  present s fun t => if t.runFits then t.acceptMbrun src else t.raise .operand

end Sys2Proof.Machine
end

