-- ==== Sys2Proof/Machine/Sampler.lean ====
section
/-! DEFINITION. The noise sampler's command SAMPLE (40_noise_sampler.md R88). Its draws are steps of the block
(Sequencer.lean). -/

namespace Sys2Proof.Machine

/-- SAMPLE accepted: OP <- SAMPLE and the statements up to the first `await`, one step
(40_noise_sampler.md R88, 30_encoding.md R65). -/
def State.acceptSample (s : State) (n : BitVec 5) : State := { s.beginSample n with op := .sample }

/-- SAMPLE N: accepted for N = 1 to 16, else E_OPERAND with the timer untouched (40_noise_sampler.md R88, R96). -/
def execSample (n : BitVec 5) (s : State) : Host.Outcome State Fault Refusal :=
  present s fun t => if sampleOperandOk n then t.acceptSample n else t.raise .operand

end Sys2Proof.Machine
end

