-- ==== Sys2Proof/Machine/SelfTest.lean ====
section
/-! DEFINITION. The self-test runner's command SELFTEST and its transitions, and the housekeeping commands NOP
and CLRERR (43_selftest_runner.md). -/

namespace Sys2Proof.Machine

/-- SELFTEST accepted: OP <- SELFTEST, PHASE <- SamplingSeed, and the seed's SAMPLE begins
(43_selftest_runner.md R131). -/
def State.acceptSelftest (s : State) : State :=
  { s.beginSample 16#5 with op := .selftest, phase := .samplingSeed }

/-- SELFTEST: accepted in Idle only, else E_REPEAT (43_selftest_runner.md R131, R132). -/
def execSelftest (s : State) : Host.Outcome State Fault Refusal :=
  present s fun t => if t.selftestFresh then t.acceptSelftest else t.raise .repeated

/-- The seed is in DATA: `LSTATE <- DATA`, then PHASE 2 with CFG_A loaded and the hardware-source run started
(43_selftest_runner.md R131). -/
def State.enterHardwareTest (s : State) : State :=
  { (s.loadSeed.loadTestCfg Config.cfgA).startRun .hardware with phase := .testingHardwareSource }

/-- The hardware-source test is over: verdict, FA, SUMA, then PHASE 3 with CFG_B loaded and the stream run
started (43_selftest_runner.md R131). -/
def State.enterStreamTest (s : State) : State :=
  { (s.judge.loadTestCfg Config.cfgB).startRun .stream with
    fa := s.judge.mbres = .fail
    suma := s.sum
    phase := .testingStream }

/-- The stream test is over: verdict, FB, SUMB, and in the same step PHASE 4, DONE, STATUS and OP <- IDLE
(43_selftest_runner.md R131, R133). -/
def State.enterDone (s : State) : State :=
  { s.judge with
    fb := s.judge.mbres = .fail
    sumb := s.sum
    phase := .done
    done := true
    status := publishedStatus s.fa (s.judge.mbres = .fail)
    op := .idle }

/-- NOP: no effect (43_selftest_runner.md R134). -/
def execNop (s : State) : Host.Outcome State Fault Refusal := present s fun t => t

/-- CLRERR: ERR <- 0 (43_selftest_runner.md R135). -/
def execClrerr (s : State) : Host.Outcome State Fault Refusal := present s State.clearErr

end Sys2Proof.Machine
end

