-- ==== Sys2Proof/Machine/Sequencer.lean ====
section
/-! DEFINITION. The block's own steps while a blocking command is in progress (00_scope.md section 6;
40_noise_sampler.md R88, 42_monobit_tester.md R114, 43_selftest_runner.md R131). A step runs from an `await`
that has become true, or from the head of MBRUN's loop, to the next of the two or to the end (log 11). -/

namespace Sys2Proof.Machine

/-- What follows the end of a SAMPLE: its command ends, or the word just sampled is accumulated, or it is the
self-test's seed (R88, R114, R131). -/
def State.afterSample (s : State) : State :=
  match s.op with
  | .idle => s
  | .sample => { s with op := .idle }
  | .mbrun => s.endDraw
  | .selftest => if s.phase = .samplingSeed then s.enterHardwareTest else s.endDraw

/-- A SAMPLE's step from an `await` that has become true (40_noise_sampler.md R88, R89). -/
def State.stepDraw (s : State) : State :=
  if s.takeDraw.sampling then s.takeDraw else s.takeDraw.afterSample

/-- One turn of MBRUN's loop (42_monobit_tester.md R114): source A begins a SAMPLE of 16 bits, source B takes
its word at once. -/
def State.stepDrawWord (s : State) : State :=
  match s.runsrc with
  | .hardware => s.beginSample 16#5
  | .stream => s.advanceStream.endDraw

/-- MBRUN after its loop: MBJUDGE, and what follows in the command it runs for (R114, R131). The pairs of OP
and PHASE that no run reaches do nothing (log 20). -/
def State.endRun (s : State) : State :=
  match s.op with
  | .idle => s
  | .sample => s
  | .mbrun => { s.judge with op := .idle }
  | .selftest =>
    match s.phase with
    | .idle => s
    | .samplingSeed => s
    | .testingHardwareSource => s.enterStreamTest
    | .testingStream => s.enterDone
    | .done => s

/-- The block is at an `await` whose condition does not hold: it has no enabled step
(40_noise_sampler.md R94, 60_exceptions.md R153). -/
def State.waiting (s : State) : Bool := s.sampling && !s.captured

/-- The block's turn. Idle, it waits for a command (10_state.md R33); waiting for a capture, it polls and
nothing changes (40_noise_sampler.md R83, log 13). -/
def State.blockStep (s : State) : State :=
  if s.busy then
    if s.sampling then
      if s.captured then s.stepDraw else s
    else if s.runcnt.toNat = 0 then s.endRun else s.stepDrawWord
  else s

end Sys2Proof.Machine
end

