-- ==== Sys2Proof/Machine/Stream.lean ====
section
/-! DEFINITION. The stream extender's commands SEED and NEXT (41_stream_extender.md). -/

namespace Sys2Proof.Machine

/-- SEED: load the generator state from DATA (41_stream_extender.md R101). -/
def execSeed (s : State) : Host.Outcome State Fault Refusal := present s State.loadSeed

/-- NEXT: advance the generator by one step and deliver the new state (41_stream_extender.md R102). -/
def execNext (s : State) : Host.Outcome State Fault Refusal := present s State.advanceStream

end Sys2Proof.Machine
end

