-- ==== Sys2Proof/Machine/Dispatch.lean ====
section
/-! DEFINITION. The one match over the commands; every arm calls one meaning. -/

namespace Sys2Proof.Machine

def exec (i : Instr) (s : State) : Host.Outcome State Fault Refusal :=
  match i with
  | .nop => Sys2Proof.Machine.execNop s
  | .sample n => Sys2Proof.Machine.execSample n s
  | .seed => Sys2Proof.Machine.execSeed s
  | .next => Sys2Proof.Machine.execNext s
  | .mbclr => Sys2Proof.Machine.execMbclr s
  | .mbacc => Sys2Proof.Machine.execMbacc s
  | .mbjudge => Sys2Proof.Machine.execMbjudge s
  | .mbrun src => Sys2Proof.Machine.execMbrun src s
  | .selftest => Sys2Proof.Machine.execSelftest s
  | .clrerr => Sys2Proof.Machine.execClrerr s

end Sys2Proof.Machine
end

