-- ==== Sys2Proof/Machine/Command.lean ====
section
/-! DEFINITION. What each event does to the machine: the host's write (20_memory.md R42), the command a write
to CMD carries (30_encoding.md R65), the host's read, the environment's steps. -/

namespace Sys2Proof.Machine

/-- A host write of `v` to CMD with BUSY = 0: decode, refuse with E_ILLEGAL, or run the command
(30_encoding.md R64, R65). -/
def issueCommand (v : Word) (s : State) : Host.Outcome State Fault Refusal :=
  match decode v with
  | .ok i => exec i s
  | .error _ => .next (s.raise .illegal)

/-- The host write of `v` to index `i`: E_BUSY first, whatever the index (20_memory.md R42, 60_exceptions.md
R156). -/
def memWrite (i : RegIndex) (v : Word) (s : State) : Host.Outcome State Fault Refusal :=
  if s.busy then .next (s.raise .busy)
  else if regOf i = .cmd then issueCommand v s
  else .next (s.writeReg (regOf i) v)

/-- Another consumer leaves the timer as `t`, which it may do only while no SAMPLE owns the timer
(70_reset_and_hazards.md R174; U9: refused, log 10). -/
def useTimer (t : Timer) (s : State) : Host.Outcome State Fault Refusal :=
  if s.sampling then .refused .timerOwned else .next { s with timer := t }

/-- One event, taken from the front of `pending` before it acts (log 1). -/
def deliver (e : Event) (s : State) : Host.Outcome State Fault Refusal :=
  match e with
  | .write i v => memWrite i v s
  | .read i => .next (s.memRead i)
  | .block => .next s.blockStep
  | .capture b => .next (s.capture b)
  | .otherConsumer t => useTimer t s
  | .reset => .next s.resetBlock

/-- The next turn: the first pending event, or the block's own step when none is pending (log 1). -/
def takeTurn (s : State) : Host.Outcome State Fault Refusal :=
  match s.pending with
  | [] => .next s.blockStep
  | e :: rest => deliver e (s.withPending rest)

/-- The host's next action becomes a write of the word to CMD, before everything pending (log 2). -/
def State.withCommandWord (s : State) (v : Word) : State :=
  s.withPending (.write 0#4 v :: s.pending)

end Sys2Proof.Machine
end

