-- ==== Sys2Proof/Machine/Script.lean ====
section
/-! DEFINITION. The script notation for host programs and its pseudo-commands (30_encoding.md R66, R67): how a
line becomes host actions. Nothing here changes what the block does. -/

namespace Sys2Proof.Machine

/-- One line of a script (30_encoding.md R66). -/
inductive ScriptLine where
  /-- `WR reg, value`. -/
  | wr (index : RegIndex) (value : Word)
  /-- `RD reg`. -/
  | rd (index : RegIndex)
  /-- `WAIT`: repeat `RD STAT` until BUSY = 0. -/
  | wait
  /-- A command line. -/
  | cmd (i : Instr)
deriving DecidableEq, Repr

/-- The pseudo-commands (30_encoding.md R67). -/
inductive PseudoCommand where
  | rand
  | ldseed (v : Word)
  | reseed
  | feed (v : Word)
  | mbcfg (b d m : Word)
  | mbtest (src : Source)
deriving DecidableEq, Repr

/-- The fixed expansion of a pseudo-command (30_encoding.md R67). -/
def PseudoCommand.expand (p : PseudoCommand) : List ScriptLine :=
  match p with
  | .rand => [.cmd (.sample 16#5), .wait]
  | .ldseed v => [.wr 3#4 v, .cmd .seed]
  | .reseed => [.cmd (.sample 16#5), .wait, .cmd .seed]
  | .feed v => [.wr 3#4 v, .cmd .mbacc]
  | .mbcfg b d m => [.wr 8#4 b, .wr 9#4 d, .wr 10#4 m]
  | .mbtest src => [.cmd (.mbrun src), .wait, .rd 1#4]

/-- The host actions of one line (30_encoding.md R66). A WAIT is as many polls of STAT as the host happens to
make, `polls`; it has returned when the last one showed BUSY = 0, see `waitReturned` (log 26). -/
def ScriptLine.events (polls : Nat) (l : ScriptLine) : List Event :=
  match l with
  | .wr i v => [.write i v]
  | .rd i => [.read i]
  | .wait => List.replicate polls (.read 1#4)
  | .cmd i => [.write 0#4 (encode i)]

/-- The poll of STAT that ends a WAIT: the value delivered has BUSY = 0 (30_encoding.md R66). -/
def State.waitReturned (s : State) : Bool := !s.rdata.getLsbD 0

end Sys2Proof.Machine
end

