-- ==== Sys2Proof/Safety.lean ====
section
/-! DEFINITION. What claims say about runs: several steps, the states that are an end and the one that is not
(70_reset_and_hazards.md R182, 60_exceptions.md R153), the invariant of every reachable state (10_state.md R34),
and the schedules and closed forms that claims about whole commands are written with. -/

namespace Sys2Proof.Machine

/-! ## Runs and their ends -/

/-- `k` steps of the machine from `s`. -/
def runs (k : Nat) (s : State) : Host.Outcome State Fault Refusal := Host.Core.run Sys2Proof.core k s

/-- The block is quiescent: OP = IDLE, BUSY = 0 (70_reset_and_hazards.md R182). -/
def State.quiescent (s : State) : Bool := !s.busy

/-- The boot-time run has ended: DONE = 1; its result is STATUS (70_reset_and_hazards.md R182). -/
def State.bootFinished (s : State) : Bool := s.done

/-- The hang: BUSY = 1 at an `await` with TFLAG = 0. It is not an end (60_exceptions.md R153,
70_reset_and_hazards.md R182). -/
def State.hung (s : State) : Bool := s.waiting

/-- The next turn is the block's own. -/
def State.blockTurn (s : State) : Prop := s.pending.head? = none ∨ s.pending.head? = some .block

/-- The next turn is the event `e`. -/
def State.nextIs (s : State) (e : Event) : Prop := s.pending.head? = some e

/-- An event that leaves a hang a hang: no capture, no reset, no use of the timer (60_exceptions.md R153). -/
def Event.leavesHang (e : Event) : Bool :=
  match e with
  | .write _ _ => true
  | .read _ => true
  | .block => true
  | .capture _ => false
  | .otherConsumer _ => false
  | .reset => false

/-! ## Refusals -/

/-- What a refusal with code `e` leaves: ERR takes the code if it was 0, nothing else changes
(60_exceptions.md R155). -/
def refusedAs (e : ErrCode) (s : State) : State :=
  { s with err := if s.err = .none then e else s.err }

/-- The one refusal a host write of `v` to index `i` meets, in the order of 60_exceptions.md R156. -/
def expectedRefusal (s : State) (i : RegIndex) (v : Word) : ErrCode :=
  if s.op ≠ .idle then .busy
  else if i = 0#4 then
    match decode v with
    | .error _ => .illegal
    | .ok (.sample n) => if n.toNat = 0 ∨ 16 < n.toNat then .operand else .none
    | .ok (.mbrun _) => if 32767 < s.mbbits.toNat * s.mbdraws.toNat then .operand else .none
    | .ok .mbacc => if 32767 < s.nbits.toNat + s.mbbits.toNat then .overrun else .none
    | .ok .selftest => if s.phase = .idle then .none else .repeated
    | .ok _ => .none
  else if i = 8#4 ∧ (v.toNat = 0 ∨ 16 < v.toNat) then .operand
  else .none

/-- The value OP takes when the command is accepted, none for a non-blocking command (30_encoding.md R63). -/
def opOf (i : Instr) : Option BlockingOp :=
  match i with
  | .nop => none
  | .sample _ => some .sample
  | .seed => none
  | .next => none
  | .mbclr => none
  | .mbacc => none
  | .mbjudge => none
  | .mbrun _ => some .mbrun
  | .selftest => some .selftest
  | .clrerr => none

/-- The registers at indices 3 to 12, in order (10_state.md R10). -/
def State.registersFrom3 (s : State) : List Word :=
  [s.data, s.lstate, s.sum, s.nbits, s.dcnt, s.mbbits, s.mbdraws, s.mbbound, s.suma, s.sumb]

/-! ## Schedules and closed forms -/

/-- The turns of successive draws: each a capture of the bit, then the block's step that reads it
(40_noise_sampler.md R89). -/
def drawTurns (draws : List Bool) : List Event :=
  match draws with
  | [] => []
  | b :: rest => .capture b :: .block :: drawTurns rest

/-- The turns of successive words of `MBRUN A`: the block begins a SAMPLE, then its draws come
(42_monobit_tester.md R114). -/
def wordTurns (words : List (List Bool)) : List Event :=
  match words with
  | [] => []
  | draws :: rest => .block :: (drawTurns draws ++ wordTurns rest)

/-- The turns of a host-fed test: `WR MBBITS, b`, `WR DATA, w`, MBACC for each pair (b, w)
(30_encoding.md R67, FEED). -/
def feedTurns (words : List (Word × Word)) : List Event :=
  match words with
  | [] => []
  | (b, w) :: rest => .write 8#4 b :: .write 3#4 w :: .write 0#4 0x5000#16 :: feedTurns rest

/-- How many of the five draws of the `i`-th voted bit read 1, the draws in the order taken
(40_noise_sampler.md R90). -/
def onesAmong (draws : List Bool) (i : Nat) : Nat := ((draws.drop (5 * i)).take 5).count true

/-- The vote of the `i`-th bit sampled, `maj_i` (40_noise_sampler.md R90, R91). -/
def majority (draws : List Bool) (i : Nat) : Bool := decide (3 ≤ onesAmong draws i)

/-- The number whose bit `i` is `maj_i`, for `i` below `n` (40_noise_sampler.md R91). -/
def votedNumber (draws : List Bool) (n : Nat) : Nat :=
  match n with
  | 0 => 0
  | k + 1 => votedNumber draws k + (if majority draws k then 2 ^ k else 0)

/-- The word a SAMPLE of 16 bits delivers for these 80 draws (40_noise_sampler.md R91). -/
def sampledWord (draws : List Bool) : Word := BitVec.ofNat 16 (votedNumber draws 16)

/-- `next` applied `k` times (41_stream_extender.md R102, R104). -/
def lcgIterate (k : Nat) (s : Word) : Word :=
  match k with
  | 0 => s
  | k + 1 => lcgIterate k (lcgNext s)

/-- The words `MBRUN B` tests from a state: `next(s)`, `next(next(s))`, and so on (42_monobit_tester.md R114). -/
def streamWords (k : Nat) (s : Word) : List Word :=
  match k with
  | 0 => []
  | k + 1 => lcgNext s :: streamWords k (lcgNext s)

/-- The sum of the contributions of words at one bit count (42_monobit_tester.md R115). -/
def sumOf (b : Nat) (words : List Word) : Int := (words.map fun w => contrib w b).sum

/-! ## The invariant -/

/-- The loop of MBRUN is in progress, as a command of its own or inside SELFTEST. -/
def State.running (s : State) : Prop :=
  s.op = .mbrun ∨ s.phase = .testingHardwareSource ∨ s.phase = .testingStream

/-- What holds of every reachable state: 10_state.md R34 and what makes it inductive. -/
structure MachineInv (s : State) : Prop where
  /-- A stand-alone SAMPLE has bits still to vote (R88). -/
  sampleHasBits : s.op = .sample → s.biti.toNat < s.nreq.toNat
  /-- An idle block is not inside a SAMPLE. -/
  idleHasNone : s.op = .idle → s.nreq.toNat ≤ s.biti.toNat
  /-- BITI counts up to NREQ, at most 16 (R25). -/
  bitsVoted : s.biti.toNat ≤ s.nreq.toNat ∧ s.nreq.toNat ≤ 16
  /-- ONES <= DRAWJ <= 4 (R34 (h)). -/
  drawsCounted : s.ones.toNat ≤ s.drawj.toNat ∧ s.drawj.toNat ≤ 4
  /-- SELFTEST is in progress exactly in the three middle phases (R131). -/
  selftestPhases : s.op = .selftest ↔
    s.phase = .samplingSeed ∨ s.phase = .testingHardwareSource ∨ s.phase = .testingStream
  /-- In SamplingSeed a SAMPLE is in progress (R131). -/
  seedHasBits : s.phase = .samplingSeed → s.biti.toNat < s.nreq.toNat
  /-- A SAMPLE inside a run serves source A and a draw still to be counted (R114). -/
  samplingServesRun : s.sampling = true → s.running → s.runsrc = .hardware ∧ 0 < s.runcnt.toNat
  /-- A SAMPLE owns the timer (R88, R174). -/
  timerOwned : s.sampling = true → s.timer.tcfg = Config.cfgCapture
  /-- DONE = 1 exactly when PHASE = 4 (R34 (b)). -/
  doneIsPhase : s.done = true ↔ s.phase = .done
  /-- STATUS is 0 unless DONE = 1 (R34 (c)). -/
  statusBefore : s.done = false → s.status = 0#2
  /-- At Done STATUS is the two failure flags (R133). -/
  statusAfter : s.done = true → s.status = BitVec.ofBool s.fb ++ BitVec.ofBool s.fa
  /-- FA and SUMA are 0 until the hardware-source test has ended (R28, R29). -/
  recordA : s.phase = .idle ∨ s.phase = .samplingSeed ∨ s.phase = .testingHardwareSource →
    s.fa = false ∧ s.suma = 0#16
  /-- FB and SUMB are 0 until Done (R28, R29). -/
  recordB : s.phase ≠ .done → s.fb = false ∧ s.sumb = 0#16
  /-- NBITS <= 32767 (R34 (d)). -/
  testLength : s.nbits.toNat ≤ 32767
  /-- abs(SUM) <= NBITS (R34 (d)). -/
  sumBound : s.sum.toInt.natAbs ≤ s.nbits.toNat
  /-- SUM and NBITS have the same parity (R34 (e)). -/
  sumParity : (s.sum.toInt - (s.nbits.toNat : Int)) % 2 = 0
  /-- DCNT <= NBITS <= 16 * DCNT (R34 (f)). -/
  drawCount : s.dcnt.toNat ≤ s.nbits.toNat ∧ s.nbits.toNat ≤ 16 * s.dcnt.toNat
  /-- 1 <= MBBITS <= 16 (R34 (g)). -/
  widthLegal : 1 ≤ s.mbbits.toNat ∧ s.mbbits.toNat ≤ 16
  /-- The counts of a run in progress (R114). -/
  runCounts : s.running →
    s.nbits.toNat = s.mbbits.toNat * s.dcnt.toNat ∧
    s.dcnt.toNat + s.runcnt.toNat = s.mbdraws.toNat ∧
    s.mbbits.toNat * s.mbdraws.toNat ≤ 32767 ∧ s.mbres = .none
  /-- The hardware-source test runs with CFG_A over source A (R131). -/
  hardwareTestArgs : s.phase = .testingHardwareSource → s.runsrc = .hardware ∧
    s.mbbits.toNat = Config.cfgA.bits ∧ s.mbdraws.toNat = Config.cfgA.draws ∧
    s.mbbound.toNat = Config.cfgA.bound
  /-- The stream test runs with CFG_B over source B (R131). -/
  streamTestArgs : s.phase = .testingStream → s.runsrc = .stream ∧
    s.mbbits.toNat = Config.cfgB.bits ∧ s.mbdraws.toNat = Config.cfgB.draws ∧
    s.mbbound.toNat = Config.cfgB.bound

end Sys2Proof.Machine
end

