-- ==== Sys2Proof/Certificates/Slice0/Obligations.lean ====
section
/-! DEFINITION. The statements for the provers, in the order of OBLIGATIONS.json. Each says, for every state (or
every state of the invariant), what a rule of spec/ says; a record equality on states is at once the frame. -/

open Sys2Proof Sys2Proof.Machine

/-! ## Encoding -/

/-- 30_encoding.md R60, R61: a word decodes to a command exactly when it is that command's word, over all 65536
words and all commands with every operand. -/
def Obligations.DecodeEncodeAgree : Prop :=
  ∀ (w : Word) (i : Instr), decode w = .ok i ↔ encode i = w

/-- 30_encoding.md R64: every word is a well-formed command (26 words), or is refused with E_ILLEGAL, or (a SAMPLE
word with N = 0 or 17 to 31) with E_OPERAND, and a refusal changes nothing but ERR. -/
def Obligations.EveryWordClassified : Prop :=
  (∀ w : Word, (∃ i, decode w = .ok i ∧ i.wellFormed = true) ↔
    w.toNat ∈ [0x0000, 0x2000, 0x3000, 0x4000, 0x5000, 0x6000, 0x7000, 0x7001, 0x8000, 0x9000,
      0x1001, 0x1002, 0x1003, 0x1004, 0x1005, 0x1006, 0x1007, 0x1008, 0x1009, 0x100A, 0x100B, 0x100C,
      0x100D, 0x100E, 0x100F, 0x1010]) ∧
  (∀ (s : State) (w : Word) (rest : List Event), s.busy = false →
    (10 ≤ w.toNat / 4096 ∨ (w.toNat / 4096 ∈ [0, 2, 3, 4, 5, 6, 8, 9] ∧ w.toNat % 4096 ≠ 0) ∨
      (w.toNat / 4096 = 1 ∧ w.toNat % 4096 / 32 ≠ 0) ∨ (w.toNat / 4096 = 7 ∧ w.toNat % 4096 / 2 ≠ 0)) →
    step (s.withPending (.write 0#4 w :: rest)) = .next (refusedAs .illegal (s.withPending rest))) ∧
  (∀ (s : State) (w : Word) (rest : List Event), s.busy = false →
    (w.toNat = 0x1000 ∨ (0x1011 ≤ w.toNat ∧ w.toNat ≤ 0x101F)) →
    step (s.withPending (.write 0#4 w :: rest)) = .next (refusedAs .operand (s.withPending rest)))

/-- The words written out from 30_encoding.md R61's table decode to their commands (a sanity statement). -/
def Obligations.WrittenOutWordsDecode : Prop :=
  decode 0x0000#16 = .ok .nop ∧ decode 0x1001#16 = .ok (.sample 1#5) ∧
  decode 0x1010#16 = .ok (.sample 16#5) ∧ decode 0x2000#16 = .ok .seed ∧ decode 0x3000#16 = .ok .next ∧
  decode 0x4000#16 = .ok .mbclr ∧ decode 0x5000#16 = .ok .mbacc ∧ decode 0x6000#16 = .ok .mbjudge ∧
  decode 0x7000#16 = .ok (.mbrun .hardware) ∧ decode 0x7001#16 = .ok (.mbrun .stream) ∧
  decode 0x8000#16 = .ok .selftest ∧ decode 0x9000#16 = .ok .clrerr ∧
  decode 0xA000#16 = .error .reservedOpcode ∧ decode 0x3001#16 = .error .reservedOperandBits

/-- A host write of a command's word to CMD runs the decoded command on the state without that event, and the
word that `withFetchWord` places runs in the very next step (logs 1, 2 and 16: the model's form of 30_encoding.md R65). -/
def Obligations.StepRunsDecodedCommand : Prop :=
  (∀ (s : State) (w : Word) (i : Instr) (rest : List Event), s.pending = .write 0#4 w :: rest →
    decode w = .ok i → step s = exec i (s.withPending rest)) ∧
  (∀ (s : State) (nbits w : Nat) (i : Instr), decodeTableWord nbits w = some i →
    step (s.withFetchWord nbits w) = exec i s)

/-! ## Commands -/

/-- 43_selftest_runner.md R134, R135: NOP and CLRERR, their words, and what refuses them. -/
def Obligations.HousekeepingCommands : Prop :=
  (∀ s : State, s.busy = false → exec .nop s = .next s) ∧
  (∀ s : State, s.busy = false → exec .clrerr s = .next { s with err := .none }) ∧
  decode 0x0000#16 = .ok .nop ∧ decode 0x9000#16 = .ok .clrerr ∧
  (∀ (s : State) (w : Word) (rest : List Event), s.busy = false →
    (w.toNat / 4096 = 0 ∨ w.toNat / 4096 = 9) → w.toNat % 4096 ≠ 0 →
    step (s.withPending (.write 0#4 w :: rest)) = .next (refusedAs .illegal (s.withPending rest))) ∧
  (∀ s : State, s.busy = true →
    exec .nop s = .next (refusedAs .busy s) ∧ exec .clrerr s = .next (refusedAs .busy s))

/-- 41_stream_extender.md R101, R102: SEED and NEXT, their words, and what refuses them. -/
def Obligations.StreamCommands : Prop :=
  (∀ s : State, s.busy = false → exec .seed s = .next { s with lstate := s.data }) ∧
  (∀ s : State, s.busy = false → exec .next s = .next { s with
    lstate := BitVec.ofNat 16 ((49381 * s.lstate.toNat + 8643) % 65536)
    data := BitVec.ofNat 16 ((49381 * s.lstate.toNat + 8643) % 65536) }) ∧
  decode 0x2000#16 = .ok .seed ∧ decode 0x3000#16 = .ok .next ∧
  (∀ (s : State) (w : Word) (rest : List Event), s.busy = false →
    (w.toNat / 4096 = 2 ∨ w.toNat / 4096 = 3) → w.toNat % 4096 ≠ 0 →
    step (s.withPending (.write 0#4 w :: rest)) = .next (refusedAs .illegal (s.withPending rest))) ∧
  (∀ s : State, s.busy = true →
    exec .seed s = .next (refusedAs .busy s) ∧ exec .next s = .next (refusedAs .busy s))

/-- 42_monobit_tester.md R111, R112, R113: MBCLR, MBACC with its overrun check, MBJUDGE with its strict
comparison, their words, and what refuses them. -/
def Obligations.TesterCommands : Prop :=
  (∀ s : State, s.busy = false →
    exec .mbclr s = .next { s with sum := 0#16, nbits := 0#16, dcnt := 0#16, mbres := .none }) ∧
  (∀ s : State, s.busy = false → s.nbits.toNat + s.mbbits.toNat ≤ 32767 →
    exec .mbacc s = .next { s with
      sum := BitVec.ofInt 16 (s.sum.toInt + contrib s.data s.mbbits.toNat)
      nbits := BitVec.ofNat 16 (s.nbits.toNat + s.mbbits.toNat)
      dcnt := BitVec.ofNat 16 (s.dcnt.toNat + 1)
      mbres := .none }) ∧
  (∀ s : State, s.busy = false → 32767 < s.nbits.toNat + s.mbbits.toNat →
    exec .mbacc s = .next (refusedAs .overrun s)) ∧
  (∀ s : State, s.busy = false → s.mbbound.toNat < s.sum.toInt.natAbs →
    exec .mbjudge s = .next { s with mbres := .fail }) ∧
  (∀ s : State, s.busy = false → s.sum.toInt.natAbs ≤ s.mbbound.toNat →
    exec .mbjudge s = .next { s with mbres := .pass }) ∧
  decode 0x4000#16 = .ok .mbclr ∧ decode 0x5000#16 = .ok .mbacc ∧ decode 0x6000#16 = .ok .mbjudge ∧
  (∀ (s : State) (w : Word) (rest : List Event), s.busy = false →
    (w.toNat / 4096 = 4 ∨ w.toNat / 4096 = 5 ∨ w.toNat / 4096 = 6) → w.toNat % 4096 ≠ 0 →
    step (s.withPending (.write 0#4 w :: rest)) = .next (refusedAs .illegal (s.withPending rest))) ∧
  (∀ s : State, s.busy = true → exec .mbclr s = .next (refusedAs .busy s) ∧
    exec .mbacc s = .next (refusedAs .busy s) ∧ exec .mbjudge s = .next (refusedAs .busy s))

/-- 40_noise_sampler.md R88 (its acceptance step) and 30_encoding.md R65: SAMPLE N with N = 1 to 16 is accepted,
any other N is refused with the timer untouched. -/
def Obligations.SampleAccepted : Prop :=
  (∀ (s : State) (n : BitVec 5), s.busy = false → 1 ≤ n.toNat → n.toNat ≤ 16 →
    exec (.sample n) s = .next { s with
      op := .sample, snap := s.timer.tcfg, timer := { s.timer with tcfg := Config.cfgCapture }
      sr := 0#16, biti := 0#5, nreq := n, ones := 0#3, drawj := 0#3 }) ∧
  (∀ (s : State) (n : BitVec 5), s.busy = false → (n.toNat = 0 ∨ 16 < n.toNat) →
    exec (.sample n) s = .next (refusedAs .operand s))

/-- 42_monobit_tester.md R114 (its statements before the loop) and 30_encoding.md R65: MBRUN is accepted when
MBBITS * MBDRAWS fits in 32767 and refused otherwise, from either source. Where the acceptance step ends is the
model's choice (log 11). -/
def Obligations.MbrunAccepted : Prop :=
  (∀ (s : State) (src : Source), s.busy = false → s.mbbits.toNat * s.mbdraws.toNat ≤ 32767 →
    exec (.mbrun src) s = .next { s with
      op := .mbrun, runsrc := src, runcnt := s.mbdraws
      sum := 0#16, nbits := 0#16, dcnt := 0#16, mbres := .none }) ∧
  (∀ (s : State) (src : Source), s.busy = false → 32767 < s.mbbits.toNat * s.mbdraws.toNat →
    exec (.mbrun src) s = .next (refusedAs .operand s))

/-- 43_selftest_runner.md R131 (its acceptance step), R132: SELFTEST is accepted in Idle, where it enters
SamplingSeed and begins the seed's SAMPLE, and is refused with E_REPEAT in every other phase. -/
def Obligations.SelftestAcceptedOnce : Prop :=
  (∀ s : State, s.busy = false → s.phase = .idle →
    exec .selftest s = .next { s with
      op := .selftest, phase := .samplingSeed
      snap := s.timer.tcfg, timer := { s.timer with tcfg := Config.cfgCapture }
      sr := 0#16, biti := 0#5, nreq := 16#5, ones := 0#3, drawj := 0#3 }) ∧
  (∀ s : State, s.busy = false → s.phase ≠ .idle →
    exec .selftest s = .next (refusedAs .repeated s))

/-- 20_memory.md R47 (d), 60_exceptions.md R156 (1): while BUSY = 1 every command is refused with E_BUSY and
nothing else changes. -/
def Obligations.BusyRefusesEveryCommand : Prop :=
  ∀ (i : Instr) (s : State), s.busy = true → exec i s = .next (refusedAs .busy s)

/-- 30_encoding.md R63: only SAMPLE, MBRUN and SELFTEST ever change OP, each to its own value and only when the
block was idle; the other seven leave it, so BUSY is never seen as 1 because of them. -/
def Obligations.OnlyBlockingCommandsSetBusy : Prop :=
  ∀ (i : Instr) (s t : State), exec i s = .next t →
    t.op = s.op ∨ (s.busy = false ∧ opOf i = some t.op ∧ t.busy = true)

/-! ## Refusals -/

/-- 60_exceptions.md R155: a refused host write stores its code in ERR when ERR was 0, is dropped when it was not, and
changes nothing else; ERR takes a code in no other way, and while it holds one only CLRERR and reset change it, both
to 0. -/
def Obligations.ErrKeepsFirstRefusal : Prop :=
  (∀ s t : State, step s = .next t → s.err ≠ .none →
    t.err = s.err ∨
    (t.err = .none ∧ (s.nextIs .reset ∨ (s.nextIs (.write 0#4 0x9000#16) ∧ s.busy = false)))) ∧
  (∀ s t : State, step s = .next t → s.err = .none → t.err ≠ .none →
    (∃ i v, s.nextIs (.write i v)) ∧ t = { s.withPending s.pending.tail with err := t.err }) ∧
  (∀ (s : State) (i : RegIndex) (v : Word) (rest : List Event), expectedRefusal s i v ≠ .none →
    step (s.withPending (.write i v :: rest)) =
      .next (refusedAs (expectedRefusal s i v) (s.withPending rest))) ∧
  (∀ (s : State) (rest : List Event), s.busy = false →
    step (s.withPending (.write 0#4 0x9000#16 :: rest)) = .next { s.withPending rest with err := .none }) ∧
  (∀ (s t : State) (rest : List Event), step (s.withPending (.reset :: rest)) = .next t → t.err = .none)

/-- 60_exceptions.md R156: the one refusal a host write meets, in order; where it meets one, nothing but ERR
changes. -/
def Obligations.RefusalPriority : Prop :=
  ∀ (s : State) (i : RegIndex) (v : Word) (rest : List Event), s.err = .none →
    ∃ t, step (s.withPending (.write i v :: rest)) = .next t ∧
      t.err = expectedRefusal s i v ∧
      (t.err ≠ .none → t = { s.withPending rest with err := t.err })

/-! ## Host accesses -/

/-- 20_memory.md R41: what a host read of each index gives, and that it changes no state of the block. While
BUSY = 1 a read of indices 3 to 12 gives the next free value, whatever it is. -/
def Obligations.HostReadGivesRegister : Prop :=
  ∀ (s : State) (i : RegIndex) (rest : List Event),
    step (s.withPending (.read i :: rest)) = .next
      (if i.toNat = 1 then { s.withPending rest with rdata := s.statWord }
       else if i.toNat = 2 then { s.withPending rest with rdata := BitVec.setWidth 16 s.status }
       else if i.toNat = 0 ∨ 13 ≤ i.toNat then { s.withPending rest with rdata := 0#16 }
       else if s.busy = true then
        { s.withPending rest with rdata := Config.freeRead s.freeCount, freeCount := s.freeCount + 1 }
       else { s.withPending rest with rdata := s.registersFrom3.getD (i.toNat - 3) 0#16 })

/-- 20_memory.md R42: what a host write to each index does, for every index and every value. -/
def Obligations.HostWriteActs : Prop :=
  ∀ (s : State) (i : RegIndex) (v : Word) (rest : List Event),
    (s.busy = true → step (s.withPending (.write i v :: rest)) =
      .next (refusedAs .busy (s.withPending rest))) ∧
    (s.busy = false → i.toNat = 0 →
      (∀ c, decode v = .ok c →
        step (s.withPending (.write i v :: rest)) = exec c (s.withPending rest)) ∧
      (∀ e, decode v = .error e → step (s.withPending (.write i v :: rest)) =
        .next (refusedAs .illegal (s.withPending rest)))) ∧
    (s.busy = false → i.toNat ≠ 0 → step (s.withPending (.write i v :: rest)) = .next
      (if i.toNat = 3 then { s.withPending rest with data := v }
       else if i.toNat = 8 then
        if v.toNat = 0 ∨ 16 < v.toNat then refusedAs .operand (s.withPending rest)
        else { s.withPending rest with mbbits := v }
       else if i.toNat = 9 then { s.withPending rest with mbdraws := v }
       else if i.toNat = 10 then { s.withPending rest with mbbound := v }
       else (s.withPending rest)))

/-- 20_memory.md R46: the reserved indices 13, 14, 15 read 0 at any time; a write to one is ignored without an
error when BUSY = 0 and records E_BUSY when BUSY = 1. -/
def Obligations.ReservedIndices : Prop :=
  ∀ (s : State) (i : RegIndex) (v : Word) (rest : List Event), 13 ≤ i.toNat →
    step (s.withPending (.read i :: rest)) = .next { s.withPending rest with rdata := 0#16 } ∧
    (s.busy = false → step (s.withPending (.write i v :: rest)) = .next (s.withPending rest)) ∧
    (s.busy = true → step (s.withPending (.write i v :: rest)) =
      .next (refusedAs .busy (s.withPending rest)))

/-- 10_state.md R15, with the codes of R14, R18 and R19: the fields of STAT, its reset value, that a host read of STAT
gives them at any time, BUSY = 1 included, and that a host write to STAT is ignored. -/
def Obligations.StatFields : Prop :=
  (∀ (s : State) (rest : List Event),
    step (s.withPending (.read 1#4 :: rest)) = .next { s.withPending rest with rdata := s.statWord } ∧
    s.statWord.getLsbD 0 = decide (s.op ≠ .idle) ∧ s.statWord.getLsbD 1 = s.done ∧
    s.statWord.extractLsb' 2 3 = s.phase.code ∧ s.statWord.extractLsb' 5 2 = s.mbres.code ∧
    s.statWord.getLsbD 7 = false ∧ s.statWord.extractLsb' 8 3 = s.err.code ∧
    s.statWord.extractLsb' 11 5 = 0#5) ∧
  State.reset.statWord = 0#16 ∧
  (∀ (s : State) (v : Word) (rest : List Event), s.busy = false →
    step (s.withPending (.write 1#4 v :: rest)) = .next (s.withPending rest)) ∧
  [Phase.idle, .samplingSeed, .testingHardwareSource, .testingStream, .done].map Phase.code =
    [0#3, 1#3, 2#3, 3#3, 4#3] ∧
  [Verdict.none, .pass, .fail].map Verdict.code = [0#2, 1#2, 2#2] ∧
  [ErrCode.none, .busy, .illegal, .operand, .overrun, .repeated].map ErrCode.code =
    [0#3, 1#3, 2#3, 3#3, 4#3, 5#3]

/-! ## Reset and the open configurations -/

/-- 10_state.md R33: what every visible register and field, and every hidden register but SNAP, holds after reset.
SNAP is unspecified there (its named value is log 5's and is not stated). -/
def Obligations.ResetValues : Prop :=
  (∀ i : RegIndex, (State.reset.memRead i).rdata =
    if i.toNat = 8 then BitVec.ofNat 16 Config.cfgA.bits
    else if i.toNat = 9 then BitVec.ofNat 16 Config.cfgA.draws
    else if i.toNat = 10 then BitVec.ofNat 16 Config.cfgA.bound
    else 0#16) ∧
  State.reset.busy = false ∧ State.reset.done = false ∧ State.reset.phase = .idle ∧
  State.reset.mbres = .none ∧ State.reset.err = .none ∧ State.reset.status = 0#2 ∧
  State.reset.op = .idle ∧ State.reset.sr = 0#16 ∧ State.reset.ones = 0#3 ∧ State.reset.drawj = 0#3 ∧
  State.reset.biti = 0#5 ∧ State.reset.nreq = 0#5 ∧ State.reset.runcnt = 0#16 ∧
  State.reset.runsrc = .hardware ∧ State.reset.fa = false ∧ State.reset.fb = false

/-- 70_reset_and_hazards.md R170, R171: at any moment, in any state, `Reset` gives every register of the block its
reset value in one step and leaves TCFG, TFLAG and TLSB as they are. SNAP's value after it is not stated; that the
model's own fields stay is log 18. -/
def Obligations.ResetEventKeepsTimer : Prop :=
  ∀ (s : State) (rest : List Event), ∃ t, step (s.withPending (.reset :: rest)) = .next t ∧
    t = { State.reset with
      snap := t.snap, timer := s.timer, pending := rest, rdata := s.rdata, freeCount := s.freeCount }

/-- 00_scope.md R3: the constraints on CFG_A and CFG_B hold whatever the open numbers are. -/
def Obligations.ConfigurationConstraints : Prop :=
  (1 ≤ Config.cfgA.bits ∧ Config.cfgA.bits ≤ 16 ∧ Config.cfgA.bits * Config.cfgA.draws ≤ 32767 ∧
    Config.cfgA.bound ≤ 65535) ∧
  (1 ≤ Config.cfgB.bits ∧ Config.cfgB.bits ≤ 8 ∧ Config.cfgB.bits * Config.cfgB.draws ≤ 32767 ∧
    Config.cfgB.bound ≤ 65535)

/-! ## The invariant -/

/-- The invariant holds at reset, for every timer, every SNAP (unspecified there: log 5), every schedule and every
value of the model's own fields (logs 14, 18). -/
def Obligations.ResetMeetsInvariant : Prop :=
  ∀ (tm : Timer) (c : TimerCfg) (evs : List Event) (r : Word) (n : Nat),
    MachineInv { State.reset with timer := tm, snap := c, pending := evs, rdata := r, freeCount := n }

/-- Every step keeps the invariant, from every state that meets it, whoever's turn it is. -/
def Obligations.StepKeepsInvariant : Prop :=
  ∀ s t : State, MachineInv s → step s = .next t → MachineInv t

/-- 10_state.md R34 (a) to (i), in every state a run from reset reaches, under every schedule of the host and the
environment, for every timer, every SNAP and every value of the model's own fields. -/
def Obligations.ReachableStateFacts : Prop :=
  ∀ (k : Nat) (tm : Timer) (c : TimerCfg) (evs : List Event) (r : Word) (n : Nat) (t : State),
    runs k { State.reset with timer := tm, snap := c, pending := evs, rdata := r, freeCount := n } = .next t →
    (t.statWord.getLsbD 0 = true ↔ t.op ≠ .idle) ∧
    (t.done = true ↔ t.phase = .done) ∧
    (t.done = false → t.status = 0#2) ∧
    (t.nbits.toNat ≤ 32767 ∧ t.sum.toInt.natAbs ≤ t.nbits.toNat) ∧
    t.sum.toInt % 2 = (t.nbits.toNat : Int) % 2 ∧
    (t.dcnt.toNat ≤ t.nbits.toNat ∧ t.nbits.toNat ≤ 16 * t.dcnt.toNat) ∧
    (1 ≤ t.mbbits.toNat ∧ t.mbbits.toNat ≤ 16) ∧
    (t.sampling = true → t.ones.toNat ≤ t.drawj.toNat ∧ t.drawj.toNat ≤ 4) ∧
    (t.phase.code.toNat ≤ 4 ∧ t.mbres.code.toNat ≤ 2 ∧ t.err.code.toNat ≤ 5)

/-! ## The noise sampler -/

/-- 40_noise_sampler.md R81, R82, R84, R85, R86: the port operations of the CaptureTimer that answer at once, and the
effect of the timer's step `Capture(b)`. That it may come in any state, also when TCFG is not CFG_CAPTURE, is the model's
choice, which R87 permits a model (log 9). The two flags `restore_config` leaves unspecified (R92, log 7) are not
stated. -/
def Obligations.TimerPortOperations : Prop :=
  (∀ (s : State) (b : Bool) (rest : List Event), step (s.withPending (.capture b :: rest)) =
    .next { s.withPending rest with timer := { tcfg := s.timer.tcfg, tflag := true, tlsb := b } }) ∧
  ∀ s : State,
    s.saveConfig = { s with snap := s.timer.tcfg } ∧
    s.configureCapture = { s with timer := { tcfg := Config.cfgCapture, tflag := s.timer.tflag, tlsb := s.timer.tlsb } } ∧
    s.clearCaptureFlag = { s with timer := { tcfg := s.timer.tcfg, tflag := false, tlsb := s.timer.tlsb } } ∧
    s.readCaptureLsb = s.timer.tlsb ∧
    s.restoreConfig.timer.tcfg = s.snap ∧
    s.restoreConfig = { s with timer := s.restoreConfig.timer, freeCount := s.restoreConfig.freeCount }

/-- 40_noise_sampler.md R83, R88, R89: inside a SAMPLE the block's turn changes nothing while TFLAG = 0; with
TFLAG = 1 it takes exactly one draw: it clears the flag and counts the draw, DATA unchanged, or, on the last of the
5 * NREQ draws, ends the SAMPLE, restores the timer's configuration and delivers the word. -/
def Obligations.EachDrawUsesOneCapture : Prop :=
  ∀ (s : State) (rest : List Event), MachineInv s → s.sampling = true →
    (s.timer.tflag = false →
      step (s.withPending (.block :: rest)) = .next (s.withPending rest)) ∧
    (s.timer.tflag = true → ∃ t, step (s.withPending (.block :: rest)) = .next t ∧
      (5 * s.biti.toNat + s.drawj.toNat + 1 < 5 * s.nreq.toNat →
        5 * t.biti.toNat + t.drawj.toNat = 5 * s.biti.toNat + s.drawj.toNat + 1 ∧
        t = { s with
          pending := rest, timer := { s.timer with tflag := false }
          sr := t.sr, ones := t.ones, drawj := t.drawj, biti := t.biti }) ∧
      (5 * s.biti.toNat + s.drawj.toNat + 1 = 5 * s.nreq.toNat →
        t.sampling = false ∧ t.timer.tcfg = s.snap ∧
        t.data = (s.sr >>> 1) |||
          (if 3 ≤ s.ones.toNat + s.timer.tlsb.toNat then 0x8000#16 else 0#16)))

/-- 40_noise_sampler.md R88, R90, R91, R92: a SAMPLE N whose 5 * N captures come delivers the majority of each five
draws, first bit lowest, left-aligned, and the timer has its configuration back; nothing else visible changes. The
hidden sampler registers, the two timer flags and the free-value counter are the model's (logs 7, 15, 18). -/
def Obligations.SampleDeliversMajorities : Prop :=
  ∀ (s : State) (n : BitVec 5) (draws : List Bool) (rest : List Event),
    s.busy = false → 1 ≤ n.toNat → n.toNat ≤ 16 → draws.length = 5 * n.toNat →
    ∃ t, runs (1 + 2 * draws.length) (s.withPending
        (.write 0#4 (BitVec.ofNat 16 (0x1000 + n.toNat)) :: (drawTurns draws ++ rest))) = .next t ∧
      t = { s with
        pending := rest, data := t.data, timer := t.timer, freeCount := t.freeCount
        sr := t.sr, ones := t.ones, drawj := t.drawj, biti := t.biti, nreq := t.nreq, snap := t.snap } ∧
      t.timer.tcfg = s.timer.tcfg ∧
      (∀ i, i < n.toNat → t.data.getLsbD (16 - n.toNat + i) = majority draws i) ∧
      (∀ j, j < 16 - n.toNat → t.data.getLsbD j = false)

/-- 40_noise_sampler.md R92, R93 and 70_reset_and_hazards.md R174: a SAMPLE that begins saves the configuration it
finds and installs CFG_CAPTURE; while it lasts no step changes SNAP or the configuration; a SAMPLE that ends
otherwise than by reset leaves in TCFG what SNAP holds. -/
def Obligations.TimerOwnedDuringSample : Prop :=
  ∀ s t : State, MachineInv s → step s = .next t →
    (s.sampling = false → t.sampling = true →
      t.snap = s.timer.tcfg ∧ t.timer = { s.timer with tcfg := Config.cfgCapture }) ∧
    (s.sampling = true → t.sampling = true → t.snap = s.snap ∧ t.timer.tcfg = s.timer.tcfg) ∧
    (s.sampling = true → t.sampling = false → ¬ s.nextIs .reset → t.timer.tcfg = s.snap)

/-- 70_reset_and_hazards.md R174, 93_implementation_defined.md U9: another consumer may set the timer as it likes
while no SAMPLE owns it; while one does, the model has no such step (the model's refusal, log 10). -/
def Obligations.OtherConsumerKeptOut : Prop :=
  ∀ (s : State) (tm : Timer) (rest : List Event),
    (s.sampling = true → step (s.withPending (.otherConsumer tm :: rest)) = .refused .timerOwned) ∧
    (s.sampling = false → step (s.withPending (.otherConsumer tm :: rest)) =
      .next { s.withPending rest with timer := tm })

/-- 40_noise_sampler.md R93: nothing depends on the timer's prior configuration. Two machines that differ only in
TCFG and SNAP go through any number of steps differing only in TCFG and SNAP, and stop together. That TFLAG and TLSB
after a SAMPLE agree in the two is the model's choice (log 27): R80 and R92 leave open whether the snapshot restored
contains them. -/
def Obligations.PriorConfigurationDoesNotMatter : Prop :=
  ∀ (k : Nat) (s : State) (c d : TimerCfg),
    (∀ t, runs k s = .next t → ∃ c' d',
      runs k { s with timer := { s.timer with tcfg := c }, snap := d } =
        .next { t with timer := { t.timer with tcfg := c' }, snap := d' }) ∧
    (∀ r, runs k s = .refused r →
      runs k { s with timer := { s.timer with tcfg := c }, snap := d } = .refused r)

/-- 40_noise_sampler.md R94, 60_exceptions.md R153: a block that waits for a capture stays exactly as it is for any
number of steps in which no capture and no reset comes, whatever the host does; only ERR records its writes. -/
def Obligations.HangLastsWithoutCapture : Prop :=
  ∀ (k : Nat) (s : State), s.hung = true → s.pending.all Event.leavesHang = true →
    ∃ t, runs k s = .next t ∧ t.hung = true ∧
      t = { s with
        pending := s.pending.drop k, err := t.err, rdata := t.rdata, freeCount := t.freeCount }

/-- 10_state.md R11, 40_noise_sampler.md R88: every writer of DATA with the value it gives, and that DATA keeps its
old value while a SAMPLE is in progress. A SAMPLE that ends delivers SR, which in a state of the invariant is the word
so far, shifted once more, with the vote of the last five draws at bit 15. -/
def Obligations.DataWriters : Prop :=
  (∀ s t : State, step s = .next t → s.sampling = true → t.sampling = true → t.data = s.data) ∧
  (∀ s t : State, step s = .next t →
    t.data = s.data ∨
    (∃ v, s.nextIs (.write 3#4 v) ∧ s.busy = false ∧ t.data = v) ∨
    (s.nextIs (.write 0#4 0x3000#16) ∧ s.busy = false ∧ t.data = lcgNext s.lstate) ∨
    (s.blockTurn ∧ s.sampling = true ∧ t.sampling = false ∧ t.data = t.sr) ∨
    (s.blockTurn ∧ s.busy = true ∧ s.runsrc = .stream ∧ 0 < s.runcnt.toNat ∧ t.data = lcgNext s.lstate) ∨
    (s.nextIs .reset ∧ t.data = 0#16)) ∧
  (∀ s t : State, MachineInv s → step s = .next t → s.blockTurn → s.sampling = true → t.sampling = false →
    t.data = (s.sr >>> 1) |||
      (if 3 ≤ s.ones.toNat + s.timer.tlsb.toNat then 0x8000#16 else 0#16))

/-! ## The stream extender -/

/-- 41_stream_extender.md R100: the function `next`. -/
def Obligations.LcgFunction : Prop :=
  ∀ s : Word, (lcgNext s).toNat = (49381 * s.toNat + 8643) % 65536

/-- 41_stream_extender.md R103: the composition law, and that reading the state as signed gives the same 16 bits;
NEXT raises nothing and touches no flag. -/
def Obligations.LcgArithmeticLaws : Prop :=
  (∀ s : Word, (lcgNext (lcgNext s)).toNat = (49381 * (49381 * s.toNat + 8643) + 8643) % 65536) ∧
  (∀ s : Word, lcgNext s = BitVec.ofInt 16 (49381 * s.toInt + 8643)) ∧
  (∀ s : State, s.busy = false →
    exec .next s = .next { s with lstate := lcgNext s.lstate, data := lcgNext s.lstate })

/-- 41_stream_extender.md R104 (a), (b): `next` is a bijection without a fixed point. -/
def Obligations.LcgBijectionNoFixedPoint : Prop :=
  Function.Bijective lcgNext ∧ ∀ s : Word, lcgNext s ≠ s

/-- 41_stream_extender.md R104 (c): from any state the sequence returns after exactly 65536 steps and not before,
and visits every state once in that period. -/
def Obligations.LcgFullPeriod : Prop :=
  (∀ s : Word, lcgIterate 65536 s = s) ∧
  (∀ (s : Word) (m : Nat), 0 < m → m < 65536 → lcgIterate m s ≠ s) ∧
  (∀ s u : Word, ∃! k : Nat, k < 65536 ∧ lcgIterate k s = u)

/-- 41_stream_extender.md R104 (d): bit k of the state repeats with period exactly 2^(k+1), and the low k bits form
a sequence of period 2^k. -/
def Obligations.LcgBitPeriods : Prop :=
  ∀ (k : Nat) (s : Word), k < 16 →
    (∀ m, (lcgIterate (m + 2 ^ (k + 1)) s).getLsbD k = (lcgIterate m s).getLsbD k) ∧
    (∀ p, 0 < p → p < 2 ^ (k + 1) →
      ∃ m, (lcgIterate (m + p) s).getLsbD k ≠ (lcgIterate m s).getLsbD k) ∧
    (∀ m, (lcgIterate (m + 2 ^ k) s).toNat % 2 ^ k = (lcgIterate m s).toNat % 2 ^ k)

/-- 10_state.md R12, 41_stream_extender.md R106: the only writers of LSTATE are reset, SEED, NEXT, a stream draw of
MBRUN or SELFTEST, and the self-test's seed load. -/
def Obligations.LstateWriters : Prop :=
  ∀ s t : State, step s = .next t →
    t.lstate = s.lstate ∨
    (s.nextIs (.write 0#4 0x2000#16) ∧ s.busy = false ∧ t.lstate = s.data) ∨
    (s.nextIs (.write 0#4 0x3000#16) ∧ s.busy = false ∧ t.lstate = lcgNext s.lstate) ∨
    (s.blockTurn ∧ s.busy = true ∧ s.sampling = false ∧ s.runsrc = .stream ∧ 0 < s.runcnt.toNat ∧
      t.lstate = lcgNext s.lstate) ∨
    (s.blockTurn ∧ s.op = .selftest ∧ s.phase = .samplingSeed ∧ s.sampling = true ∧
      t.phase = .testingHardwareSource ∧ t.lstate = t.data) ∨
    (s.nextIs .reset ∧ t.lstate = 0#16)

/-! ## The monobit tester -/

/-- 42_monobit_tester.md R110: the contribution of a word as the sum over its top bits, its closed form with the
count of ones, its range and parity, and that the bits below are ignored. -/
def Obligations.ContributionLaws : Prop :=
  ∀ (w : Word) (b : Nat), 1 ≤ b → b ≤ 16 →
    contrib w b = (∑ k ∈ Finset.range b, if w.getLsbD (15 - k) then (1 : Int) else -1) ∧
    contrib w b = 2 * (((Finset.range b).filter fun k => w.getLsbD (15 - k) = true).card : Int) - b ∧
    (-(b : Int) ≤ contrib w b ∧ contrib w b ≤ b) ∧ contrib w b % 2 = (b : Int) % 2 ∧
    (∀ v : Word, v >>> (16 - b) = w >>> (16 - b) → contrib v b = contrib w b)

/-- 42_monobit_tester.md R115: a host-fed test. After MBCLR, words accumulated at any legal bit counts that fit in
32767 bits give the exact sum of their contributions, the count of bits and the count of words; the absolute sum is
at most the count of bits, with its parity. -/
def Obligations.HostFedTestSum : Prop :=
  ∀ (s : State) (ws : List (Word × Word)) (rest : List Event), s.busy = false →
    (∀ p ∈ ws, 1 ≤ p.1.toNat ∧ p.1.toNat ≤ 16) → (ws.map fun p => p.1.toNat).sum ≤ 32767 →
    ∃ t, runs (1 + 3 * ws.length) (s.withPending
        (.write 0#4 0x4000#16 :: (feedTurns ws ++ rest))) = .next t ∧
      t = { s with
        pending := rest, sum := t.sum, nbits := t.nbits, dcnt := t.dcnt, mbres := .none
        mbbits := t.mbbits, data := t.data } ∧
      t.sum.toInt = (ws.map fun p => contrib p.2 p.1.toNat).sum ∧
      t.nbits.toNat = (ws.map fun p => p.1.toNat).sum ∧ t.dcnt.toNat = ws.length ∧
      t.sum.toInt.natAbs ≤ t.nbits.toNat ∧ t.sum.toInt % 2 = (t.nbits.toNat : Int) % 2

/-- 42_monobit_tester.md R114, source B: an accepted MBRUN B always completes, after MBDRAWS + 1 turns of the block
(the count of turns is log 11's), with the sum over the next MBDRAWS outputs of the stream, the seed not among them,
and the verdict on it. -/
def Obligations.MbrunStreamCompletes : Prop :=
  ∀ (s : State) (rest : List Event), MachineInv s → s.busy = false →
    s.mbbits.toNat * s.mbdraws.toNat ≤ 32767 →
    ∃ t, runs (1 + (s.mbdraws.toNat + 1)) (s.withPending
        (.write 0#4 0x7001#16 :: (List.replicate (s.mbdraws.toNat + 1) .block ++ rest))) = .next t ∧
      t = { s with
        pending := rest, lstate := t.lstate, data := t.data, sum := t.sum, nbits := t.nbits, dcnt := t.dcnt
        mbres := t.mbres, runcnt := t.runcnt, runsrc := t.runsrc } ∧
      t.lstate = lcgIterate s.mbdraws.toNat s.lstate ∧
      t.data = (if s.mbdraws.toNat = 0 then s.data else t.lstate) ∧
      t.sum.toInt = sumOf s.mbbits.toNat (streamWords s.mbdraws.toNat s.lstate) ∧
      t.nbits.toNat = s.mbbits.toNat * s.mbdraws.toNat ∧ t.dcnt = s.mbdraws ∧
      t.mbres = (if s.mbbound.toNat < t.sum.toInt.natAbs then .fail else .pass)

/-- 42_monobit_tester.md R114, source A: an accepted MBRUN A whose 80 * MBDRAWS captures come completes with the sum
over the sampled words and the verdict on it; LSTATE, STATUS, FA and FB are untouched and the timer has its
configuration back. The turns are log 11's. -/
def Obligations.MbrunHardwareCompletes : Prop :=
  ∀ (s : State) (words : List (List Bool)) (rest : List Event), MachineInv s → s.busy = false →
    s.mbbits.toNat * s.mbdraws.toNat ≤ 32767 → words.length = s.mbdraws.toNat →
    (∀ d ∈ words, d.length = 80) →
    ∃ t, runs (1 + ((wordTurns words).length + 1)) (s.withPending
        (.write 0#4 0x7000#16 :: (wordTurns words ++ .block :: rest))) = .next t ∧
      t = { s with
        pending := rest, data := t.data, sum := t.sum, nbits := t.nbits, dcnt := t.dcnt, mbres := t.mbres
        runcnt := t.runcnt, runsrc := t.runsrc, timer := t.timer, freeCount := t.freeCount
        sr := t.sr, ones := t.ones, drawj := t.drawj, biti := t.biti, nreq := t.nreq, snap := t.snap } ∧
      t.timer.tcfg = s.timer.tcfg ∧
      t.data = ((words.map sampledWord).getLast?).getD s.data ∧
      t.sum.toInt = sumOf s.mbbits.toNat (words.map sampledWord) ∧
      t.nbits.toNat = s.mbbits.toNat * s.mbdraws.toNat ∧ t.dcnt = s.mbdraws ∧
      t.mbres = (if s.mbbound.toNat < t.sum.toInt.natAbs then .fail else .pass)

/-! ## The self-test runner -/

/-- 43_selftest_runner.md R131, R133: a SELFTEST accepted in Idle whose 80 + 80 * DRAWS_A captures come runs to
Done: the seed is the first sample, source A is tested with CFG_A and the stream from the seed with CFG_B, SUMA and
SUMB record the sums, and STATUS tells which sum exceeded its bound. The turns are log 11's. -/
def Obligations.SelftestCompletes : Prop :=
  ∀ (s : State) (seed : List Bool) (words : List (List Bool)) (rest : List Event),
    s.busy = false → s.phase = .idle → seed.length = 80 →
    words.length = Config.cfgA.draws → (∀ d ∈ words, d.length = 80) →
    ∃ t, runs (1 + (drawTurns seed).length + (wordTurns words).length + 1 + (Config.cfgB.draws + 1)) (s.withPending
        (.write 0#4 0x8000#16 :: (drawTurns seed ++ (wordTurns words ++
          .block :: (List.replicate (Config.cfgB.draws + 1) .block ++ rest))))) = .next t ∧
      t.pending = rest ∧ t.busy = false ∧ t.phase = .done ∧ t.done = true ∧ t.err = s.err ∧
      t.timer.tcfg = s.timer.tcfg ∧
      t.suma.toInt = sumOf Config.cfgA.bits (words.map sampledWord) ∧
      t.sumb.toInt = sumOf Config.cfgB.bits (streamWords Config.cfgB.draws (sampledWord seed)) ∧
      t.lstate = lcgIterate Config.cfgB.draws (sampledWord seed) ∧ t.sum = t.sumb ∧
      t.status.getLsbD 0 = decide (Config.cfgA.bound < t.suma.toInt.natAbs) ∧
      t.status.getLsbD 1 = decide (Config.cfgB.bound < t.sumb.toInt.natAbs) ∧
      t.mbbits.toNat = Config.cfgB.bits ∧ t.mbdraws.toNat = Config.cfgB.draws ∧
      t.mbbound.toNat = Config.cfgB.bound

/-- 10_state.md R14, 43_selftest_runner.md R130: PHASE is written only by SELFTEST and moves 0, 1, 2, 3, 4 in that
order, in every state. -/
def Obligations.PhaseMovesInOrder : Prop :=
  ∀ s t : State, step s = .next t → ¬ s.nextIs .reset →
    t.phase = s.phase ∨
    (s.phase = .idle ∧ t.phase = .samplingSeed ∧ s.nextIs (.write 0#4 0x8000#16) ∧ t.op = .selftest) ∨
    (s.op = .selftest ∧ s.blockTurn ∧
      ((s.phase = .samplingSeed ∧ t.phase = .testingHardwareSource) ∨
       (s.phase = .testingHardwareSource ∧ t.phase = .testingStream) ∨
       (s.phase = .testingStream ∧ t.phase = .done ∧ t.op = .idle)))

/-- 10_state.md R17, R23, 43_selftest_runner.md R133, 60_exceptions.md R162: STATUS and DONE change only in the step
that enters Done, together, with OP <- IDLE and the event IndSet(STATUS) in that step; no other step but reset
changes them, and no other step sets the indicator. -/
def Obligations.StatusPublishedOnceAtDone : Prop :=
  ∀ s t : State, MachineInv s → step s = .next t → ¬ s.nextIs .reset →
    (t.status = s.status ∧ t.done = s.done ∧ indSet s t = none) ∨
    (s.done = false ∧ s.status = 0#2 ∧ s.op = .selftest ∧ s.phase = .testingStream ∧ s.blockTurn ∧
      t.done = true ∧ t.phase = .done ∧ t.op = .idle ∧
      t.status.getLsbD 0 = t.fa ∧ t.status.getLsbD 1 = t.fb ∧ indSet s t = some t.status)

/-- 10_state.md R28, R29: FA and SUMA are written only when the hardware-source test ends, FB and SUMB only when the
stream test ends, from the sum and its verdict, by SELFTEST alone. -/
def Obligations.SelftestRecords : Prop :=
  ∀ s t : State, step s = .next t → ¬ s.nextIs .reset →
    ((t.suma = s.suma ∧ t.fa = s.fa) ∨
      (s.op = .selftest ∧ s.blockTurn ∧ s.phase = .testingHardwareSource ∧ t.phase = .testingStream ∧
        t.suma = s.sum ∧ t.fa = decide (s.mbbound.toNat < s.sum.toInt.natAbs))) ∧
    ((t.sumb = s.sumb ∧ t.fb = s.fb) ∨
      (s.op = .selftest ∧ s.blockTurn ∧ s.phase = .testingStream ∧ t.phase = .done ∧
        t.sumb = s.sum ∧ t.fb = decide (s.mbbound.toNat < s.sum.toInt.natAbs)))

/-- 43_selftest_runner.md R138: while no SELFTEST is in progress and none is being issued, no step but reset writes
PHASE, DONE, STATUS, FA, FB, SUMA or SUMB. -/
def Obligations.OtherCommandsLeaveSelftestResult : Prop :=
  ∀ s t : State, step s = .next t → ¬ s.nextIs .reset → s.op ≠ .selftest →
    ¬ s.nextIs (.write 0#4 0x8000#16) →
    t.phase = s.phase ∧ t.done = s.done ∧ t.status = s.status ∧ t.fa = s.fa ∧ t.fb = s.fb ∧
    t.suma = s.suma ∧ t.sumb = s.sumb
end

