-- ==== Sys2Proof/Laws/Config.lean ====
section
/-! SUPPORT. The constraints that hold of the open configurations whatever their values (00_scope.md R3), and that
the open type of timer configurations leaves no platform out (00_scope.md R5). -/

/-- Nothing is lost: every type with decidable equality and a chosen element is the configurations of some platform,
with CFG_CAPTURE the chosen element (00_scope.md R5; log 4). -/
theorem Sys2Proof.PlatformCfg.covers {α : Type} [DecidableEq α] (c : α) :
    ∃ (p : TimerPlatform) (e : α → p.Cfg), Function.Bijective e ∧ e c = .capture := by
  let p : TimerPlatform :=
    { Other := { a : α // a ≠ c }, dec := inferInstance, print := ⟨fun _ _ => Std.Format.nil⟩ }
  refine ⟨p, fun a => if h : a = c then .capture else .other ⟨a, h⟩, ⟨?_, ?_⟩, by simp⟩
  · intro a b hab
    by_cases ha : a = c <;> by_cases hb : b = c <;> simp_all
    exact congrArg Subtype.val hab
  · rintro (_ | ⟨a, ha⟩)
    · exact ⟨c, by simp⟩
    · exact ⟨a, by simp [ha]⟩

namespace Sys2Proof.Config

theorem constrained_bits (top b d m : Nat) (h : 0 < top) :
    1 ≤ (constrained top b d m).bits ∧ (constrained top b d m).bits ≤ top := by
  have := Nat.mod_lt b h
  simp only [constrained]; omega

theorem constrained_draws (top b d m : Nat) :
    (constrained top b d m).bits * (constrained top b d m).draws ≤ 32767 := by
  have h := Nat.mod_lt d (Nat.succ_pos (maxTestBits / (b % top + 1)))
  calc (b % top + 1) * (d % (maxTestBits / (b % top + 1) + 1))
      ≤ (b % top + 1) * (maxTestBits / (b % top + 1)) := Nat.mul_le_mul_left _ (Nat.lt_succ_iff.mp h)
    _ ≤ maxTestBits := Nat.mul_div_le _ _

theorem constrained_bound (top b d m : Nat) : (constrained top b d m).bound < 65536 :=
  Nat.mod_lt _ (by decide)

/-- Nothing is lost: every triple within the constraints of 00_scope.md R3 comes from some open numbers. -/
theorem constrained_covers (top b d m : Nat) (hb : 1 ≤ b ∧ b ≤ top) (hd : b * d ≤ 32767) (hm : m < 65536) :
    constrained top (b - 1) d m = { bits := b, draws := d, bound := m } := by
  have h1 : (b - 1) % top = b - 1 := Nat.mod_eq_of_lt (by omega)
  have h2 : b - 1 + 1 = b := by omega
  have h3 : d ≤ maxTestBits / b := (Nat.le_div_iff_mul_le (by omega)).mpr (by rw [Nat.mul_comm]; exact hd)
  simp [constrained, h1, h2, Nat.mod_eq_of_lt (Nat.lt_succ_of_le h3), Nat.mod_eq_of_lt hm]

end Sys2Proof.Config
end

