-- ==== Sys2Proof/Laws/State.lean ====
section
/-! SUPPORT. What each named update does to each field of State, true by unfolding the update once: one lemma
per field per update, so that no proof unfolds an update again. -/

namespace Sys2Proof.Machine

variable (s : State)

/-! ### withPending -/

@[simp] theorem State.withPending_data (p : List Event) : (s.withPending p).data = s.data := by cases s; rfl
@[simp] theorem State.withPending_lstate (p : List Event) : (s.withPending p).lstate = s.lstate := by cases s; rfl
@[simp] theorem State.withPending_sum (p : List Event) : (s.withPending p).sum = s.sum := by cases s; rfl
@[simp] theorem State.withPending_nbits (p : List Event) : (s.withPending p).nbits = s.nbits := by cases s; rfl
@[simp] theorem State.withPending_dcnt (p : List Event) : (s.withPending p).dcnt = s.dcnt := by cases s; rfl
@[simp] theorem State.withPending_mbbits (p : List Event) : (s.withPending p).mbbits = s.mbbits := by cases s; rfl
@[simp] theorem State.withPending_mbdraws (p : List Event) : (s.withPending p).mbdraws = s.mbdraws := by cases s; rfl
@[simp] theorem State.withPending_mbbound (p : List Event) : (s.withPending p).mbbound = s.mbbound := by cases s; rfl
@[simp] theorem State.withPending_suma (p : List Event) : (s.withPending p).suma = s.suma := by cases s; rfl
@[simp] theorem State.withPending_sumb (p : List Event) : (s.withPending p).sumb = s.sumb := by cases s; rfl
@[simp] theorem State.withPending_status (p : List Event) : (s.withPending p).status = s.status := by cases s; rfl
@[simp] theorem State.withPending_done (p : List Event) : (s.withPending p).done = s.done := by cases s; rfl
@[simp] theorem State.withPending_phase (p : List Event) : (s.withPending p).phase = s.phase := by cases s; rfl
@[simp] theorem State.withPending_mbres (p : List Event) : (s.withPending p).mbres = s.mbres := by cases s; rfl
@[simp] theorem State.withPending_err (p : List Event) : (s.withPending p).err = s.err := by cases s; rfl
@[simp] theorem State.withPending_op (p : List Event) : (s.withPending p).op = s.op := by cases s; rfl
@[simp] theorem State.withPending_sr (p : List Event) : (s.withPending p).sr = s.sr := by cases s; rfl
@[simp] theorem State.withPending_ones (p : List Event) : (s.withPending p).ones = s.ones := by cases s; rfl
@[simp] theorem State.withPending_drawj (p : List Event) : (s.withPending p).drawj = s.drawj := by cases s; rfl
@[simp] theorem State.withPending_biti (p : List Event) : (s.withPending p).biti = s.biti := by cases s; rfl
@[simp] theorem State.withPending_nreq (p : List Event) : (s.withPending p).nreq = s.nreq := by cases s; rfl
@[simp] theorem State.withPending_snap (p : List Event) : (s.withPending p).snap = s.snap := by cases s; rfl
@[simp] theorem State.withPending_runcnt (p : List Event) : (s.withPending p).runcnt = s.runcnt := by cases s; rfl
@[simp] theorem State.withPending_runsrc (p : List Event) : (s.withPending p).runsrc = s.runsrc := by cases s; rfl
@[simp] theorem State.withPending_fa (p : List Event) : (s.withPending p).fa = s.fa := by cases s; rfl
@[simp] theorem State.withPending_fb (p : List Event) : (s.withPending p).fb = s.fb := by cases s; rfl
@[simp] theorem State.withPending_timer (p : List Event) : (s.withPending p).timer = s.timer := by cases s; rfl
@[simp] theorem State.withPending_pending (p : List Event) : (s.withPending p).pending = p := by cases s; rfl
@[simp] theorem State.withPending_rdata (p : List Event) : (s.withPending p).rdata = s.rdata := by cases s; rfl
@[simp] theorem State.withPending_freeCount (p : List Event) : (s.withPending p).freeCount = s.freeCount := by cases s; rfl

/-! ### raise -/

@[simp] theorem State.raise_data (e : ErrCode) : (s.raise e).data = s.data := by cases s; rfl
@[simp] theorem State.raise_lstate (e : ErrCode) : (s.raise e).lstate = s.lstate := by cases s; rfl
@[simp] theorem State.raise_sum (e : ErrCode) : (s.raise e).sum = s.sum := by cases s; rfl
@[simp] theorem State.raise_nbits (e : ErrCode) : (s.raise e).nbits = s.nbits := by cases s; rfl
@[simp] theorem State.raise_dcnt (e : ErrCode) : (s.raise e).dcnt = s.dcnt := by cases s; rfl
@[simp] theorem State.raise_mbbits (e : ErrCode) : (s.raise e).mbbits = s.mbbits := by cases s; rfl
@[simp] theorem State.raise_mbdraws (e : ErrCode) : (s.raise e).mbdraws = s.mbdraws := by cases s; rfl
@[simp] theorem State.raise_mbbound (e : ErrCode) : (s.raise e).mbbound = s.mbbound := by cases s; rfl
@[simp] theorem State.raise_suma (e : ErrCode) : (s.raise e).suma = s.suma := by cases s; rfl
@[simp] theorem State.raise_sumb (e : ErrCode) : (s.raise e).sumb = s.sumb := by cases s; rfl
@[simp] theorem State.raise_status (e : ErrCode) : (s.raise e).status = s.status := by cases s; rfl
@[simp] theorem State.raise_done (e : ErrCode) : (s.raise e).done = s.done := by cases s; rfl
@[simp] theorem State.raise_phase (e : ErrCode) : (s.raise e).phase = s.phase := by cases s; rfl
@[simp] theorem State.raise_mbres (e : ErrCode) : (s.raise e).mbres = s.mbres := by cases s; rfl
@[simp] theorem State.raise_err (e : ErrCode) : (s.raise e).err = if s.err = .none then e else s.err := by cases s; rfl
@[simp] theorem State.raise_op (e : ErrCode) : (s.raise e).op = s.op := by cases s; rfl
@[simp] theorem State.raise_sr (e : ErrCode) : (s.raise e).sr = s.sr := by cases s; rfl
@[simp] theorem State.raise_ones (e : ErrCode) : (s.raise e).ones = s.ones := by cases s; rfl
@[simp] theorem State.raise_drawj (e : ErrCode) : (s.raise e).drawj = s.drawj := by cases s; rfl
@[simp] theorem State.raise_biti (e : ErrCode) : (s.raise e).biti = s.biti := by cases s; rfl
@[simp] theorem State.raise_nreq (e : ErrCode) : (s.raise e).nreq = s.nreq := by cases s; rfl
@[simp] theorem State.raise_snap (e : ErrCode) : (s.raise e).snap = s.snap := by cases s; rfl
@[simp] theorem State.raise_runcnt (e : ErrCode) : (s.raise e).runcnt = s.runcnt := by cases s; rfl
@[simp] theorem State.raise_runsrc (e : ErrCode) : (s.raise e).runsrc = s.runsrc := by cases s; rfl
@[simp] theorem State.raise_fa (e : ErrCode) : (s.raise e).fa = s.fa := by cases s; rfl
@[simp] theorem State.raise_fb (e : ErrCode) : (s.raise e).fb = s.fb := by cases s; rfl
@[simp] theorem State.raise_timer (e : ErrCode) : (s.raise e).timer = s.timer := by cases s; rfl
@[simp] theorem State.raise_pending (e : ErrCode) : (s.raise e).pending = s.pending := by cases s; rfl
@[simp] theorem State.raise_rdata (e : ErrCode) : (s.raise e).rdata = s.rdata := by cases s; rfl
@[simp] theorem State.raise_freeCount (e : ErrCode) : (s.raise e).freeCount = s.freeCount := by cases s; rfl

/-! ### clearErr -/

@[simp] theorem State.clearErr_data : (s.clearErr).data = s.data := by cases s; rfl
@[simp] theorem State.clearErr_lstate : (s.clearErr).lstate = s.lstate := by cases s; rfl
@[simp] theorem State.clearErr_sum : (s.clearErr).sum = s.sum := by cases s; rfl
@[simp] theorem State.clearErr_nbits : (s.clearErr).nbits = s.nbits := by cases s; rfl
@[simp] theorem State.clearErr_dcnt : (s.clearErr).dcnt = s.dcnt := by cases s; rfl
@[simp] theorem State.clearErr_mbbits : (s.clearErr).mbbits = s.mbbits := by cases s; rfl
@[simp] theorem State.clearErr_mbdraws : (s.clearErr).mbdraws = s.mbdraws := by cases s; rfl
@[simp] theorem State.clearErr_mbbound : (s.clearErr).mbbound = s.mbbound := by cases s; rfl
@[simp] theorem State.clearErr_suma : (s.clearErr).suma = s.suma := by cases s; rfl
@[simp] theorem State.clearErr_sumb : (s.clearErr).sumb = s.sumb := by cases s; rfl
@[simp] theorem State.clearErr_status : (s.clearErr).status = s.status := by cases s; rfl
@[simp] theorem State.clearErr_done : (s.clearErr).done = s.done := by cases s; rfl
@[simp] theorem State.clearErr_phase : (s.clearErr).phase = s.phase := by cases s; rfl
@[simp] theorem State.clearErr_mbres : (s.clearErr).mbres = s.mbres := by cases s; rfl
@[simp] theorem State.clearErr_err : (s.clearErr).err = .none := by cases s; rfl
@[simp] theorem State.clearErr_op : (s.clearErr).op = s.op := by cases s; rfl
@[simp] theorem State.clearErr_sr : (s.clearErr).sr = s.sr := by cases s; rfl
@[simp] theorem State.clearErr_ones : (s.clearErr).ones = s.ones := by cases s; rfl
@[simp] theorem State.clearErr_drawj : (s.clearErr).drawj = s.drawj := by cases s; rfl
@[simp] theorem State.clearErr_biti : (s.clearErr).biti = s.biti := by cases s; rfl
@[simp] theorem State.clearErr_nreq : (s.clearErr).nreq = s.nreq := by cases s; rfl
@[simp] theorem State.clearErr_snap : (s.clearErr).snap = s.snap := by cases s; rfl
@[simp] theorem State.clearErr_runcnt : (s.clearErr).runcnt = s.runcnt := by cases s; rfl
@[simp] theorem State.clearErr_runsrc : (s.clearErr).runsrc = s.runsrc := by cases s; rfl
@[simp] theorem State.clearErr_fa : (s.clearErr).fa = s.fa := by cases s; rfl
@[simp] theorem State.clearErr_fb : (s.clearErr).fb = s.fb := by cases s; rfl
@[simp] theorem State.clearErr_timer : (s.clearErr).timer = s.timer := by cases s; rfl
@[simp] theorem State.clearErr_pending : (s.clearErr).pending = s.pending := by cases s; rfl
@[simp] theorem State.clearErr_rdata : (s.clearErr).rdata = s.rdata := by cases s; rfl
@[simp] theorem State.clearErr_freeCount : (s.clearErr).freeCount = s.freeCount := by cases s; rfl

/-! ### saveConfig -/

@[simp] theorem State.saveConfig_data : (s.saveConfig).data = s.data := by cases s; rfl
@[simp] theorem State.saveConfig_lstate : (s.saveConfig).lstate = s.lstate := by cases s; rfl
@[simp] theorem State.saveConfig_sum : (s.saveConfig).sum = s.sum := by cases s; rfl
@[simp] theorem State.saveConfig_nbits : (s.saveConfig).nbits = s.nbits := by cases s; rfl
@[simp] theorem State.saveConfig_dcnt : (s.saveConfig).dcnt = s.dcnt := by cases s; rfl
@[simp] theorem State.saveConfig_mbbits : (s.saveConfig).mbbits = s.mbbits := by cases s; rfl
@[simp] theorem State.saveConfig_mbdraws : (s.saveConfig).mbdraws = s.mbdraws := by cases s; rfl
@[simp] theorem State.saveConfig_mbbound : (s.saveConfig).mbbound = s.mbbound := by cases s; rfl
@[simp] theorem State.saveConfig_suma : (s.saveConfig).suma = s.suma := by cases s; rfl
@[simp] theorem State.saveConfig_sumb : (s.saveConfig).sumb = s.sumb := by cases s; rfl
@[simp] theorem State.saveConfig_status : (s.saveConfig).status = s.status := by cases s; rfl
@[simp] theorem State.saveConfig_done : (s.saveConfig).done = s.done := by cases s; rfl
@[simp] theorem State.saveConfig_phase : (s.saveConfig).phase = s.phase := by cases s; rfl
@[simp] theorem State.saveConfig_mbres : (s.saveConfig).mbres = s.mbres := by cases s; rfl
@[simp] theorem State.saveConfig_err : (s.saveConfig).err = s.err := by cases s; rfl
@[simp] theorem State.saveConfig_op : (s.saveConfig).op = s.op := by cases s; rfl
@[simp] theorem State.saveConfig_sr : (s.saveConfig).sr = s.sr := by cases s; rfl
@[simp] theorem State.saveConfig_ones : (s.saveConfig).ones = s.ones := by cases s; rfl
@[simp] theorem State.saveConfig_drawj : (s.saveConfig).drawj = s.drawj := by cases s; rfl
@[simp] theorem State.saveConfig_biti : (s.saveConfig).biti = s.biti := by cases s; rfl
@[simp] theorem State.saveConfig_nreq : (s.saveConfig).nreq = s.nreq := by cases s; rfl
@[simp] theorem State.saveConfig_snap : (s.saveConfig).snap = s.timer.tcfg := by cases s; rfl
@[simp] theorem State.saveConfig_runcnt : (s.saveConfig).runcnt = s.runcnt := by cases s; rfl
@[simp] theorem State.saveConfig_runsrc : (s.saveConfig).runsrc = s.runsrc := by cases s; rfl
@[simp] theorem State.saveConfig_fa : (s.saveConfig).fa = s.fa := by cases s; rfl
@[simp] theorem State.saveConfig_fb : (s.saveConfig).fb = s.fb := by cases s; rfl
@[simp] theorem State.saveConfig_timer : (s.saveConfig).timer = s.timer := by cases s; rfl
@[simp] theorem State.saveConfig_pending : (s.saveConfig).pending = s.pending := by cases s; rfl
@[simp] theorem State.saveConfig_rdata : (s.saveConfig).rdata = s.rdata := by cases s; rfl
@[simp] theorem State.saveConfig_freeCount : (s.saveConfig).freeCount = s.freeCount := by cases s; rfl

/-! ### configureCapture -/

@[simp] theorem State.configureCapture_data : (s.configureCapture).data = s.data := by cases s; rfl
@[simp] theorem State.configureCapture_lstate : (s.configureCapture).lstate = s.lstate := by cases s; rfl
@[simp] theorem State.configureCapture_sum : (s.configureCapture).sum = s.sum := by cases s; rfl
@[simp] theorem State.configureCapture_nbits : (s.configureCapture).nbits = s.nbits := by cases s; rfl
@[simp] theorem State.configureCapture_dcnt : (s.configureCapture).dcnt = s.dcnt := by cases s; rfl
@[simp] theorem State.configureCapture_mbbits : (s.configureCapture).mbbits = s.mbbits := by cases s; rfl
@[simp] theorem State.configureCapture_mbdraws : (s.configureCapture).mbdraws = s.mbdraws := by cases s; rfl
@[simp] theorem State.configureCapture_mbbound : (s.configureCapture).mbbound = s.mbbound := by cases s; rfl
@[simp] theorem State.configureCapture_suma : (s.configureCapture).suma = s.suma := by cases s; rfl
@[simp] theorem State.configureCapture_sumb : (s.configureCapture).sumb = s.sumb := by cases s; rfl
@[simp] theorem State.configureCapture_status : (s.configureCapture).status = s.status := by cases s; rfl
@[simp] theorem State.configureCapture_done : (s.configureCapture).done = s.done := by cases s; rfl
@[simp] theorem State.configureCapture_phase : (s.configureCapture).phase = s.phase := by cases s; rfl
@[simp] theorem State.configureCapture_mbres : (s.configureCapture).mbres = s.mbres := by cases s; rfl
@[simp] theorem State.configureCapture_err : (s.configureCapture).err = s.err := by cases s; rfl
@[simp] theorem State.configureCapture_op : (s.configureCapture).op = s.op := by cases s; rfl
@[simp] theorem State.configureCapture_sr : (s.configureCapture).sr = s.sr := by cases s; rfl
@[simp] theorem State.configureCapture_ones : (s.configureCapture).ones = s.ones := by cases s; rfl
@[simp] theorem State.configureCapture_drawj : (s.configureCapture).drawj = s.drawj := by cases s; rfl
@[simp] theorem State.configureCapture_biti : (s.configureCapture).biti = s.biti := by cases s; rfl
@[simp] theorem State.configureCapture_nreq : (s.configureCapture).nreq = s.nreq := by cases s; rfl
@[simp] theorem State.configureCapture_snap : (s.configureCapture).snap = s.snap := by cases s; rfl
@[simp] theorem State.configureCapture_runcnt : (s.configureCapture).runcnt = s.runcnt := by cases s; rfl
@[simp] theorem State.configureCapture_runsrc : (s.configureCapture).runsrc = s.runsrc := by cases s; rfl
@[simp] theorem State.configureCapture_fa : (s.configureCapture).fa = s.fa := by cases s; rfl
@[simp] theorem State.configureCapture_fb : (s.configureCapture).fb = s.fb := by cases s; rfl
@[simp] theorem State.configureCapture_timer : (s.configureCapture).timer = { s.timer with tcfg := Config.cfgCapture } := by cases s; rfl
@[simp] theorem State.configureCapture_pending : (s.configureCapture).pending = s.pending := by cases s; rfl
@[simp] theorem State.configureCapture_rdata : (s.configureCapture).rdata = s.rdata := by cases s; rfl
@[simp] theorem State.configureCapture_freeCount : (s.configureCapture).freeCount = s.freeCount := by cases s; rfl

/-! ### clearCaptureFlag -/

@[simp] theorem State.clearCaptureFlag_data : (s.clearCaptureFlag).data = s.data := by cases s; rfl
@[simp] theorem State.clearCaptureFlag_lstate : (s.clearCaptureFlag).lstate = s.lstate := by cases s; rfl
@[simp] theorem State.clearCaptureFlag_sum : (s.clearCaptureFlag).sum = s.sum := by cases s; rfl
@[simp] theorem State.clearCaptureFlag_nbits : (s.clearCaptureFlag).nbits = s.nbits := by cases s; rfl
@[simp] theorem State.clearCaptureFlag_dcnt : (s.clearCaptureFlag).dcnt = s.dcnt := by cases s; rfl
@[simp] theorem State.clearCaptureFlag_mbbits : (s.clearCaptureFlag).mbbits = s.mbbits := by cases s; rfl
@[simp] theorem State.clearCaptureFlag_mbdraws : (s.clearCaptureFlag).mbdraws = s.mbdraws := by cases s; rfl
@[simp] theorem State.clearCaptureFlag_mbbound : (s.clearCaptureFlag).mbbound = s.mbbound := by cases s; rfl
@[simp] theorem State.clearCaptureFlag_suma : (s.clearCaptureFlag).suma = s.suma := by cases s; rfl
@[simp] theorem State.clearCaptureFlag_sumb : (s.clearCaptureFlag).sumb = s.sumb := by cases s; rfl
@[simp] theorem State.clearCaptureFlag_status : (s.clearCaptureFlag).status = s.status := by cases s; rfl
@[simp] theorem State.clearCaptureFlag_done : (s.clearCaptureFlag).done = s.done := by cases s; rfl
@[simp] theorem State.clearCaptureFlag_phase : (s.clearCaptureFlag).phase = s.phase := by cases s; rfl
@[simp] theorem State.clearCaptureFlag_mbres : (s.clearCaptureFlag).mbres = s.mbres := by cases s; rfl
@[simp] theorem State.clearCaptureFlag_err : (s.clearCaptureFlag).err = s.err := by cases s; rfl
@[simp] theorem State.clearCaptureFlag_op : (s.clearCaptureFlag).op = s.op := by cases s; rfl
@[simp] theorem State.clearCaptureFlag_sr : (s.clearCaptureFlag).sr = s.sr := by cases s; rfl
@[simp] theorem State.clearCaptureFlag_ones : (s.clearCaptureFlag).ones = s.ones := by cases s; rfl
@[simp] theorem State.clearCaptureFlag_drawj : (s.clearCaptureFlag).drawj = s.drawj := by cases s; rfl
@[simp] theorem State.clearCaptureFlag_biti : (s.clearCaptureFlag).biti = s.biti := by cases s; rfl
@[simp] theorem State.clearCaptureFlag_nreq : (s.clearCaptureFlag).nreq = s.nreq := by cases s; rfl
@[simp] theorem State.clearCaptureFlag_snap : (s.clearCaptureFlag).snap = s.snap := by cases s; rfl
@[simp] theorem State.clearCaptureFlag_runcnt : (s.clearCaptureFlag).runcnt = s.runcnt := by cases s; rfl
@[simp] theorem State.clearCaptureFlag_runsrc : (s.clearCaptureFlag).runsrc = s.runsrc := by cases s; rfl
@[simp] theorem State.clearCaptureFlag_fa : (s.clearCaptureFlag).fa = s.fa := by cases s; rfl
@[simp] theorem State.clearCaptureFlag_fb : (s.clearCaptureFlag).fb = s.fb := by cases s; rfl
@[simp] theorem State.clearCaptureFlag_timer : (s.clearCaptureFlag).timer = { s.timer with tflag := false } := by cases s; rfl
@[simp] theorem State.clearCaptureFlag_pending : (s.clearCaptureFlag).pending = s.pending := by cases s; rfl
@[simp] theorem State.clearCaptureFlag_rdata : (s.clearCaptureFlag).rdata = s.rdata := by cases s; rfl
@[simp] theorem State.clearCaptureFlag_freeCount : (s.clearCaptureFlag).freeCount = s.freeCount := by cases s; rfl

/-! ### restoreConfig -/

@[simp] theorem State.restoreConfig_data : (s.restoreConfig).data = s.data := by cases s; rfl
@[simp] theorem State.restoreConfig_lstate : (s.restoreConfig).lstate = s.lstate := by cases s; rfl
@[simp] theorem State.restoreConfig_sum : (s.restoreConfig).sum = s.sum := by cases s; rfl
@[simp] theorem State.restoreConfig_nbits : (s.restoreConfig).nbits = s.nbits := by cases s; rfl
@[simp] theorem State.restoreConfig_dcnt : (s.restoreConfig).dcnt = s.dcnt := by cases s; rfl
@[simp] theorem State.restoreConfig_mbbits : (s.restoreConfig).mbbits = s.mbbits := by cases s; rfl
@[simp] theorem State.restoreConfig_mbdraws : (s.restoreConfig).mbdraws = s.mbdraws := by cases s; rfl
@[simp] theorem State.restoreConfig_mbbound : (s.restoreConfig).mbbound = s.mbbound := by cases s; rfl
@[simp] theorem State.restoreConfig_suma : (s.restoreConfig).suma = s.suma := by cases s; rfl
@[simp] theorem State.restoreConfig_sumb : (s.restoreConfig).sumb = s.sumb := by cases s; rfl
@[simp] theorem State.restoreConfig_status : (s.restoreConfig).status = s.status := by cases s; rfl
@[simp] theorem State.restoreConfig_done : (s.restoreConfig).done = s.done := by cases s; rfl
@[simp] theorem State.restoreConfig_phase : (s.restoreConfig).phase = s.phase := by cases s; rfl
@[simp] theorem State.restoreConfig_mbres : (s.restoreConfig).mbres = s.mbres := by cases s; rfl
@[simp] theorem State.restoreConfig_err : (s.restoreConfig).err = s.err := by cases s; rfl
@[simp] theorem State.restoreConfig_op : (s.restoreConfig).op = s.op := by cases s; rfl
@[simp] theorem State.restoreConfig_sr : (s.restoreConfig).sr = s.sr := by cases s; rfl
@[simp] theorem State.restoreConfig_ones : (s.restoreConfig).ones = s.ones := by cases s; rfl
@[simp] theorem State.restoreConfig_drawj : (s.restoreConfig).drawj = s.drawj := by cases s; rfl
@[simp] theorem State.restoreConfig_biti : (s.restoreConfig).biti = s.biti := by cases s; rfl
@[simp] theorem State.restoreConfig_nreq : (s.restoreConfig).nreq = s.nreq := by cases s; rfl
@[simp] theorem State.restoreConfig_snap : (s.restoreConfig).snap = s.snap := by cases s; rfl
@[simp] theorem State.restoreConfig_runcnt : (s.restoreConfig).runcnt = s.runcnt := by cases s; rfl
@[simp] theorem State.restoreConfig_runsrc : (s.restoreConfig).runsrc = s.runsrc := by cases s; rfl
@[simp] theorem State.restoreConfig_fa : (s.restoreConfig).fa = s.fa := by cases s; rfl
@[simp] theorem State.restoreConfig_fb : (s.restoreConfig).fb = s.fb := by cases s; rfl
@[simp] theorem State.restoreConfig_timer : (s.restoreConfig).timer = { tcfg := s.snap, tflag := Config.freeFlag s.freeCount, tlsb := Config.freeLsb s.freeCount } := by cases s; rfl
@[simp] theorem State.restoreConfig_pending : (s.restoreConfig).pending = s.pending := by cases s; rfl
@[simp] theorem State.restoreConfig_rdata : (s.restoreConfig).rdata = s.rdata := by cases s; rfl
@[simp] theorem State.restoreConfig_freeCount : (s.restoreConfig).freeCount = s.freeCount + 1 := by cases s; rfl

/-! ### capture -/

@[simp] theorem State.capture_data (b : Bool) : (s.capture b).data = s.data := by cases s; rfl
@[simp] theorem State.capture_lstate (b : Bool) : (s.capture b).lstate = s.lstate := by cases s; rfl
@[simp] theorem State.capture_sum (b : Bool) : (s.capture b).sum = s.sum := by cases s; rfl
@[simp] theorem State.capture_nbits (b : Bool) : (s.capture b).nbits = s.nbits := by cases s; rfl
@[simp] theorem State.capture_dcnt (b : Bool) : (s.capture b).dcnt = s.dcnt := by cases s; rfl
@[simp] theorem State.capture_mbbits (b : Bool) : (s.capture b).mbbits = s.mbbits := by cases s; rfl
@[simp] theorem State.capture_mbdraws (b : Bool) : (s.capture b).mbdraws = s.mbdraws := by cases s; rfl
@[simp] theorem State.capture_mbbound (b : Bool) : (s.capture b).mbbound = s.mbbound := by cases s; rfl
@[simp] theorem State.capture_suma (b : Bool) : (s.capture b).suma = s.suma := by cases s; rfl
@[simp] theorem State.capture_sumb (b : Bool) : (s.capture b).sumb = s.sumb := by cases s; rfl
@[simp] theorem State.capture_status (b : Bool) : (s.capture b).status = s.status := by cases s; rfl
@[simp] theorem State.capture_done (b : Bool) : (s.capture b).done = s.done := by cases s; rfl
@[simp] theorem State.capture_phase (b : Bool) : (s.capture b).phase = s.phase := by cases s; rfl
@[simp] theorem State.capture_mbres (b : Bool) : (s.capture b).mbres = s.mbres := by cases s; rfl
@[simp] theorem State.capture_err (b : Bool) : (s.capture b).err = s.err := by cases s; rfl
@[simp] theorem State.capture_op (b : Bool) : (s.capture b).op = s.op := by cases s; rfl
@[simp] theorem State.capture_sr (b : Bool) : (s.capture b).sr = s.sr := by cases s; rfl
@[simp] theorem State.capture_ones (b : Bool) : (s.capture b).ones = s.ones := by cases s; rfl
@[simp] theorem State.capture_drawj (b : Bool) : (s.capture b).drawj = s.drawj := by cases s; rfl
@[simp] theorem State.capture_biti (b : Bool) : (s.capture b).biti = s.biti := by cases s; rfl
@[simp] theorem State.capture_nreq (b : Bool) : (s.capture b).nreq = s.nreq := by cases s; rfl
@[simp] theorem State.capture_snap (b : Bool) : (s.capture b).snap = s.snap := by cases s; rfl
@[simp] theorem State.capture_runcnt (b : Bool) : (s.capture b).runcnt = s.runcnt := by cases s; rfl
@[simp] theorem State.capture_runsrc (b : Bool) : (s.capture b).runsrc = s.runsrc := by cases s; rfl
@[simp] theorem State.capture_fa (b : Bool) : (s.capture b).fa = s.fa := by cases s; rfl
@[simp] theorem State.capture_fb (b : Bool) : (s.capture b).fb = s.fb := by cases s; rfl
@[simp] theorem State.capture_timer (b : Bool) : (s.capture b).timer = { s.timer with tflag := true, tlsb := b } := by cases s; rfl
@[simp] theorem State.capture_pending (b : Bool) : (s.capture b).pending = s.pending := by cases s; rfl
@[simp] theorem State.capture_rdata (b : Bool) : (s.capture b).rdata = s.rdata := by cases s; rfl
@[simp] theorem State.capture_freeCount (b : Bool) : (s.capture b).freeCount = s.freeCount := by cases s; rfl

/-! ### loadSeed -/

@[simp] theorem State.loadSeed_data : (s.loadSeed).data = s.data := by cases s; rfl
@[simp] theorem State.loadSeed_lstate : (s.loadSeed).lstate = s.data := by cases s; rfl
@[simp] theorem State.loadSeed_sum : (s.loadSeed).sum = s.sum := by cases s; rfl
@[simp] theorem State.loadSeed_nbits : (s.loadSeed).nbits = s.nbits := by cases s; rfl
@[simp] theorem State.loadSeed_dcnt : (s.loadSeed).dcnt = s.dcnt := by cases s; rfl
@[simp] theorem State.loadSeed_mbbits : (s.loadSeed).mbbits = s.mbbits := by cases s; rfl
@[simp] theorem State.loadSeed_mbdraws : (s.loadSeed).mbdraws = s.mbdraws := by cases s; rfl
@[simp] theorem State.loadSeed_mbbound : (s.loadSeed).mbbound = s.mbbound := by cases s; rfl
@[simp] theorem State.loadSeed_suma : (s.loadSeed).suma = s.suma := by cases s; rfl
@[simp] theorem State.loadSeed_sumb : (s.loadSeed).sumb = s.sumb := by cases s; rfl
@[simp] theorem State.loadSeed_status : (s.loadSeed).status = s.status := by cases s; rfl
@[simp] theorem State.loadSeed_done : (s.loadSeed).done = s.done := by cases s; rfl
@[simp] theorem State.loadSeed_phase : (s.loadSeed).phase = s.phase := by cases s; rfl
@[simp] theorem State.loadSeed_mbres : (s.loadSeed).mbres = s.mbres := by cases s; rfl
@[simp] theorem State.loadSeed_err : (s.loadSeed).err = s.err := by cases s; rfl
@[simp] theorem State.loadSeed_op : (s.loadSeed).op = s.op := by cases s; rfl
@[simp] theorem State.loadSeed_sr : (s.loadSeed).sr = s.sr := by cases s; rfl
@[simp] theorem State.loadSeed_ones : (s.loadSeed).ones = s.ones := by cases s; rfl
@[simp] theorem State.loadSeed_drawj : (s.loadSeed).drawj = s.drawj := by cases s; rfl
@[simp] theorem State.loadSeed_biti : (s.loadSeed).biti = s.biti := by cases s; rfl
@[simp] theorem State.loadSeed_nreq : (s.loadSeed).nreq = s.nreq := by cases s; rfl
@[simp] theorem State.loadSeed_snap : (s.loadSeed).snap = s.snap := by cases s; rfl
@[simp] theorem State.loadSeed_runcnt : (s.loadSeed).runcnt = s.runcnt := by cases s; rfl
@[simp] theorem State.loadSeed_runsrc : (s.loadSeed).runsrc = s.runsrc := by cases s; rfl
@[simp] theorem State.loadSeed_fa : (s.loadSeed).fa = s.fa := by cases s; rfl
@[simp] theorem State.loadSeed_fb : (s.loadSeed).fb = s.fb := by cases s; rfl
@[simp] theorem State.loadSeed_timer : (s.loadSeed).timer = s.timer := by cases s; rfl
@[simp] theorem State.loadSeed_pending : (s.loadSeed).pending = s.pending := by cases s; rfl
@[simp] theorem State.loadSeed_rdata : (s.loadSeed).rdata = s.rdata := by cases s; rfl
@[simp] theorem State.loadSeed_freeCount : (s.loadSeed).freeCount = s.freeCount := by cases s; rfl

/-! ### advanceStream -/

@[simp] theorem State.advanceStream_data : (s.advanceStream).data = lcgNext s.lstate := by cases s; rfl
@[simp] theorem State.advanceStream_lstate : (s.advanceStream).lstate = lcgNext s.lstate := by cases s; rfl
@[simp] theorem State.advanceStream_sum : (s.advanceStream).sum = s.sum := by cases s; rfl
@[simp] theorem State.advanceStream_nbits : (s.advanceStream).nbits = s.nbits := by cases s; rfl
@[simp] theorem State.advanceStream_dcnt : (s.advanceStream).dcnt = s.dcnt := by cases s; rfl
@[simp] theorem State.advanceStream_mbbits : (s.advanceStream).mbbits = s.mbbits := by cases s; rfl
@[simp] theorem State.advanceStream_mbdraws : (s.advanceStream).mbdraws = s.mbdraws := by cases s; rfl
@[simp] theorem State.advanceStream_mbbound : (s.advanceStream).mbbound = s.mbbound := by cases s; rfl
@[simp] theorem State.advanceStream_suma : (s.advanceStream).suma = s.suma := by cases s; rfl
@[simp] theorem State.advanceStream_sumb : (s.advanceStream).sumb = s.sumb := by cases s; rfl
@[simp] theorem State.advanceStream_status : (s.advanceStream).status = s.status := by cases s; rfl
@[simp] theorem State.advanceStream_done : (s.advanceStream).done = s.done := by cases s; rfl
@[simp] theorem State.advanceStream_phase : (s.advanceStream).phase = s.phase := by cases s; rfl
@[simp] theorem State.advanceStream_mbres : (s.advanceStream).mbres = s.mbres := by cases s; rfl
@[simp] theorem State.advanceStream_err : (s.advanceStream).err = s.err := by cases s; rfl
@[simp] theorem State.advanceStream_op : (s.advanceStream).op = s.op := by cases s; rfl
@[simp] theorem State.advanceStream_sr : (s.advanceStream).sr = s.sr := by cases s; rfl
@[simp] theorem State.advanceStream_ones : (s.advanceStream).ones = s.ones := by cases s; rfl
@[simp] theorem State.advanceStream_drawj : (s.advanceStream).drawj = s.drawj := by cases s; rfl
@[simp] theorem State.advanceStream_biti : (s.advanceStream).biti = s.biti := by cases s; rfl
@[simp] theorem State.advanceStream_nreq : (s.advanceStream).nreq = s.nreq := by cases s; rfl
@[simp] theorem State.advanceStream_snap : (s.advanceStream).snap = s.snap := by cases s; rfl
@[simp] theorem State.advanceStream_runcnt : (s.advanceStream).runcnt = s.runcnt := by cases s; rfl
@[simp] theorem State.advanceStream_runsrc : (s.advanceStream).runsrc = s.runsrc := by cases s; rfl
@[simp] theorem State.advanceStream_fa : (s.advanceStream).fa = s.fa := by cases s; rfl
@[simp] theorem State.advanceStream_fb : (s.advanceStream).fb = s.fb := by cases s; rfl
@[simp] theorem State.advanceStream_timer : (s.advanceStream).timer = s.timer := by cases s; rfl
@[simp] theorem State.advanceStream_pending : (s.advanceStream).pending = s.pending := by cases s; rfl
@[simp] theorem State.advanceStream_rdata : (s.advanceStream).rdata = s.rdata := by cases s; rfl
@[simp] theorem State.advanceStream_freeCount : (s.advanceStream).freeCount = s.freeCount := by cases s; rfl

/-! ### clearTest -/

@[simp] theorem State.clearTest_data : (s.clearTest).data = s.data := by cases s; rfl
@[simp] theorem State.clearTest_lstate : (s.clearTest).lstate = s.lstate := by cases s; rfl
@[simp] theorem State.clearTest_sum : (s.clearTest).sum = 0#16 := by cases s; rfl
@[simp] theorem State.clearTest_nbits : (s.clearTest).nbits = 0#16 := by cases s; rfl
@[simp] theorem State.clearTest_dcnt : (s.clearTest).dcnt = 0#16 := by cases s; rfl
@[simp] theorem State.clearTest_mbbits : (s.clearTest).mbbits = s.mbbits := by cases s; rfl
@[simp] theorem State.clearTest_mbdraws : (s.clearTest).mbdraws = s.mbdraws := by cases s; rfl
@[simp] theorem State.clearTest_mbbound : (s.clearTest).mbbound = s.mbbound := by cases s; rfl
@[simp] theorem State.clearTest_suma : (s.clearTest).suma = s.suma := by cases s; rfl
@[simp] theorem State.clearTest_sumb : (s.clearTest).sumb = s.sumb := by cases s; rfl
@[simp] theorem State.clearTest_status : (s.clearTest).status = s.status := by cases s; rfl
@[simp] theorem State.clearTest_done : (s.clearTest).done = s.done := by cases s; rfl
@[simp] theorem State.clearTest_phase : (s.clearTest).phase = s.phase := by cases s; rfl
@[simp] theorem State.clearTest_mbres : (s.clearTest).mbres = .none := by cases s; rfl
@[simp] theorem State.clearTest_err : (s.clearTest).err = s.err := by cases s; rfl
@[simp] theorem State.clearTest_op : (s.clearTest).op = s.op := by cases s; rfl
@[simp] theorem State.clearTest_sr : (s.clearTest).sr = s.sr := by cases s; rfl
@[simp] theorem State.clearTest_ones : (s.clearTest).ones = s.ones := by cases s; rfl
@[simp] theorem State.clearTest_drawj : (s.clearTest).drawj = s.drawj := by cases s; rfl
@[simp] theorem State.clearTest_biti : (s.clearTest).biti = s.biti := by cases s; rfl
@[simp] theorem State.clearTest_nreq : (s.clearTest).nreq = s.nreq := by cases s; rfl
@[simp] theorem State.clearTest_snap : (s.clearTest).snap = s.snap := by cases s; rfl
@[simp] theorem State.clearTest_runcnt : (s.clearTest).runcnt = s.runcnt := by cases s; rfl
@[simp] theorem State.clearTest_runsrc : (s.clearTest).runsrc = s.runsrc := by cases s; rfl
@[simp] theorem State.clearTest_fa : (s.clearTest).fa = s.fa := by cases s; rfl
@[simp] theorem State.clearTest_fb : (s.clearTest).fb = s.fb := by cases s; rfl
@[simp] theorem State.clearTest_timer : (s.clearTest).timer = s.timer := by cases s; rfl
@[simp] theorem State.clearTest_pending : (s.clearTest).pending = s.pending := by cases s; rfl
@[simp] theorem State.clearTest_rdata : (s.clearTest).rdata = s.rdata := by cases s; rfl
@[simp] theorem State.clearTest_freeCount : (s.clearTest).freeCount = s.freeCount := by cases s; rfl

/-! ### accumulate -/

@[simp] theorem State.accumulate_data : (s.accumulate).data = s.data := by cases s; rfl
@[simp] theorem State.accumulate_lstate : (s.accumulate).lstate = s.lstate := by cases s; rfl
@[simp] theorem State.accumulate_sum : (s.accumulate).sum = BitVec.ofInt 16 (s.sum.toInt + contrib s.data s.mbbits.toNat) := by cases s; rfl
@[simp] theorem State.accumulate_nbits : (s.accumulate).nbits = s.nbits + s.mbbits := by cases s; rfl
@[simp] theorem State.accumulate_dcnt : (s.accumulate).dcnt = s.dcnt + 1#16 := by cases s; rfl
@[simp] theorem State.accumulate_mbbits : (s.accumulate).mbbits = s.mbbits := by cases s; rfl
@[simp] theorem State.accumulate_mbdraws : (s.accumulate).mbdraws = s.mbdraws := by cases s; rfl
@[simp] theorem State.accumulate_mbbound : (s.accumulate).mbbound = s.mbbound := by cases s; rfl
@[simp] theorem State.accumulate_suma : (s.accumulate).suma = s.suma := by cases s; rfl
@[simp] theorem State.accumulate_sumb : (s.accumulate).sumb = s.sumb := by cases s; rfl
@[simp] theorem State.accumulate_status : (s.accumulate).status = s.status := by cases s; rfl
@[simp] theorem State.accumulate_done : (s.accumulate).done = s.done := by cases s; rfl
@[simp] theorem State.accumulate_phase : (s.accumulate).phase = s.phase := by cases s; rfl
@[simp] theorem State.accumulate_mbres : (s.accumulate).mbres = .none := by cases s; rfl
@[simp] theorem State.accumulate_err : (s.accumulate).err = s.err := by cases s; rfl
@[simp] theorem State.accumulate_op : (s.accumulate).op = s.op := by cases s; rfl
@[simp] theorem State.accumulate_sr : (s.accumulate).sr = s.sr := by cases s; rfl
@[simp] theorem State.accumulate_ones : (s.accumulate).ones = s.ones := by cases s; rfl
@[simp] theorem State.accumulate_drawj : (s.accumulate).drawj = s.drawj := by cases s; rfl
@[simp] theorem State.accumulate_biti : (s.accumulate).biti = s.biti := by cases s; rfl
@[simp] theorem State.accumulate_nreq : (s.accumulate).nreq = s.nreq := by cases s; rfl
@[simp] theorem State.accumulate_snap : (s.accumulate).snap = s.snap := by cases s; rfl
@[simp] theorem State.accumulate_runcnt : (s.accumulate).runcnt = s.runcnt := by cases s; rfl
@[simp] theorem State.accumulate_runsrc : (s.accumulate).runsrc = s.runsrc := by cases s; rfl
@[simp] theorem State.accumulate_fa : (s.accumulate).fa = s.fa := by cases s; rfl
@[simp] theorem State.accumulate_fb : (s.accumulate).fb = s.fb := by cases s; rfl
@[simp] theorem State.accumulate_timer : (s.accumulate).timer = s.timer := by cases s; rfl
@[simp] theorem State.accumulate_pending : (s.accumulate).pending = s.pending := by cases s; rfl
@[simp] theorem State.accumulate_rdata : (s.accumulate).rdata = s.rdata := by cases s; rfl
@[simp] theorem State.accumulate_freeCount : (s.accumulate).freeCount = s.freeCount := by cases s; rfl

/-! ### judge -/

@[simp] theorem State.judge_data : (s.judge).data = s.data := by cases s; rfl
@[simp] theorem State.judge_lstate : (s.judge).lstate = s.lstate := by cases s; rfl
@[simp] theorem State.judge_sum : (s.judge).sum = s.sum := by cases s; rfl
@[simp] theorem State.judge_nbits : (s.judge).nbits = s.nbits := by cases s; rfl
@[simp] theorem State.judge_dcnt : (s.judge).dcnt = s.dcnt := by cases s; rfl
@[simp] theorem State.judge_mbbits : (s.judge).mbbits = s.mbbits := by cases s; rfl
@[simp] theorem State.judge_mbdraws : (s.judge).mbdraws = s.mbdraws := by cases s; rfl
@[simp] theorem State.judge_mbbound : (s.judge).mbbound = s.mbbound := by cases s; rfl
@[simp] theorem State.judge_suma : (s.judge).suma = s.suma := by cases s; rfl
@[simp] theorem State.judge_sumb : (s.judge).sumb = s.sumb := by cases s; rfl
@[simp] theorem State.judge_status : (s.judge).status = s.status := by cases s; rfl
@[simp] theorem State.judge_done : (s.judge).done = s.done := by cases s; rfl
@[simp] theorem State.judge_phase : (s.judge).phase = s.phase := by cases s; rfl
@[simp] theorem State.judge_mbres : (s.judge).mbres = verdictOf s.sum s.mbbound := by cases s; rfl
@[simp] theorem State.judge_err : (s.judge).err = s.err := by cases s; rfl
@[simp] theorem State.judge_op : (s.judge).op = s.op := by cases s; rfl
@[simp] theorem State.judge_sr : (s.judge).sr = s.sr := by cases s; rfl
@[simp] theorem State.judge_ones : (s.judge).ones = s.ones := by cases s; rfl
@[simp] theorem State.judge_drawj : (s.judge).drawj = s.drawj := by cases s; rfl
@[simp] theorem State.judge_biti : (s.judge).biti = s.biti := by cases s; rfl
@[simp] theorem State.judge_nreq : (s.judge).nreq = s.nreq := by cases s; rfl
@[simp] theorem State.judge_snap : (s.judge).snap = s.snap := by cases s; rfl
@[simp] theorem State.judge_runcnt : (s.judge).runcnt = s.runcnt := by cases s; rfl
@[simp] theorem State.judge_runsrc : (s.judge).runsrc = s.runsrc := by cases s; rfl
@[simp] theorem State.judge_fa : (s.judge).fa = s.fa := by cases s; rfl
@[simp] theorem State.judge_fb : (s.judge).fb = s.fb := by cases s; rfl
@[simp] theorem State.judge_timer : (s.judge).timer = s.timer := by cases s; rfl
@[simp] theorem State.judge_pending : (s.judge).pending = s.pending := by cases s; rfl
@[simp] theorem State.judge_rdata : (s.judge).rdata = s.rdata := by cases s; rfl
@[simp] theorem State.judge_freeCount : (s.judge).freeCount = s.freeCount := by cases s; rfl

/-! ### loadTestCfg -/

@[simp] theorem State.loadTestCfg_data (c : TestCfg) : (s.loadTestCfg c).data = s.data := by cases s; rfl
@[simp] theorem State.loadTestCfg_lstate (c : TestCfg) : (s.loadTestCfg c).lstate = s.lstate := by cases s; rfl
@[simp] theorem State.loadTestCfg_sum (c : TestCfg) : (s.loadTestCfg c).sum = s.sum := by cases s; rfl
@[simp] theorem State.loadTestCfg_nbits (c : TestCfg) : (s.loadTestCfg c).nbits = s.nbits := by cases s; rfl
@[simp] theorem State.loadTestCfg_dcnt (c : TestCfg) : (s.loadTestCfg c).dcnt = s.dcnt := by cases s; rfl
@[simp] theorem State.loadTestCfg_mbbits (c : TestCfg) : (s.loadTestCfg c).mbbits = BitVec.ofNat 16 c.bits := by cases s; rfl
@[simp] theorem State.loadTestCfg_mbdraws (c : TestCfg) : (s.loadTestCfg c).mbdraws = BitVec.ofNat 16 c.draws := by cases s; rfl
@[simp] theorem State.loadTestCfg_mbbound (c : TestCfg) : (s.loadTestCfg c).mbbound = BitVec.ofNat 16 c.bound := by cases s; rfl
@[simp] theorem State.loadTestCfg_suma (c : TestCfg) : (s.loadTestCfg c).suma = s.suma := by cases s; rfl
@[simp] theorem State.loadTestCfg_sumb (c : TestCfg) : (s.loadTestCfg c).sumb = s.sumb := by cases s; rfl
@[simp] theorem State.loadTestCfg_status (c : TestCfg) : (s.loadTestCfg c).status = s.status := by cases s; rfl
@[simp] theorem State.loadTestCfg_done (c : TestCfg) : (s.loadTestCfg c).done = s.done := by cases s; rfl
@[simp] theorem State.loadTestCfg_phase (c : TestCfg) : (s.loadTestCfg c).phase = s.phase := by cases s; rfl
@[simp] theorem State.loadTestCfg_mbres (c : TestCfg) : (s.loadTestCfg c).mbres = s.mbres := by cases s; rfl
@[simp] theorem State.loadTestCfg_err (c : TestCfg) : (s.loadTestCfg c).err = s.err := by cases s; rfl
@[simp] theorem State.loadTestCfg_op (c : TestCfg) : (s.loadTestCfg c).op = s.op := by cases s; rfl
@[simp] theorem State.loadTestCfg_sr (c : TestCfg) : (s.loadTestCfg c).sr = s.sr := by cases s; rfl
@[simp] theorem State.loadTestCfg_ones (c : TestCfg) : (s.loadTestCfg c).ones = s.ones := by cases s; rfl
@[simp] theorem State.loadTestCfg_drawj (c : TestCfg) : (s.loadTestCfg c).drawj = s.drawj := by cases s; rfl
@[simp] theorem State.loadTestCfg_biti (c : TestCfg) : (s.loadTestCfg c).biti = s.biti := by cases s; rfl
@[simp] theorem State.loadTestCfg_nreq (c : TestCfg) : (s.loadTestCfg c).nreq = s.nreq := by cases s; rfl
@[simp] theorem State.loadTestCfg_snap (c : TestCfg) : (s.loadTestCfg c).snap = s.snap := by cases s; rfl
@[simp] theorem State.loadTestCfg_runcnt (c : TestCfg) : (s.loadTestCfg c).runcnt = s.runcnt := by cases s; rfl
@[simp] theorem State.loadTestCfg_runsrc (c : TestCfg) : (s.loadTestCfg c).runsrc = s.runsrc := by cases s; rfl
@[simp] theorem State.loadTestCfg_fa (c : TestCfg) : (s.loadTestCfg c).fa = s.fa := by cases s; rfl
@[simp] theorem State.loadTestCfg_fb (c : TestCfg) : (s.loadTestCfg c).fb = s.fb := by cases s; rfl
@[simp] theorem State.loadTestCfg_timer (c : TestCfg) : (s.loadTestCfg c).timer = s.timer := by cases s; rfl
@[simp] theorem State.loadTestCfg_pending (c : TestCfg) : (s.loadTestCfg c).pending = s.pending := by cases s; rfl
@[simp] theorem State.loadTestCfg_rdata (c : TestCfg) : (s.loadTestCfg c).rdata = s.rdata := by cases s; rfl
@[simp] theorem State.loadTestCfg_freeCount (c : TestCfg) : (s.loadTestCfg c).freeCount = s.freeCount := by cases s; rfl

/-! ### startRun -/

@[simp] theorem State.startRun_data (src : Source) : (s.startRun src).data = s.data := by cases s; rfl
@[simp] theorem State.startRun_lstate (src : Source) : (s.startRun src).lstate = s.lstate := by cases s; rfl
@[simp] theorem State.startRun_sum (src : Source) : (s.startRun src).sum = 0#16 := by cases s; rfl
@[simp] theorem State.startRun_nbits (src : Source) : (s.startRun src).nbits = 0#16 := by cases s; rfl
@[simp] theorem State.startRun_dcnt (src : Source) : (s.startRun src).dcnt = 0#16 := by cases s; rfl
@[simp] theorem State.startRun_mbbits (src : Source) : (s.startRun src).mbbits = s.mbbits := by cases s; rfl
@[simp] theorem State.startRun_mbdraws (src : Source) : (s.startRun src).mbdraws = s.mbdraws := by cases s; rfl
@[simp] theorem State.startRun_mbbound (src : Source) : (s.startRun src).mbbound = s.mbbound := by cases s; rfl
@[simp] theorem State.startRun_suma (src : Source) : (s.startRun src).suma = s.suma := by cases s; rfl
@[simp] theorem State.startRun_sumb (src : Source) : (s.startRun src).sumb = s.sumb := by cases s; rfl
@[simp] theorem State.startRun_status (src : Source) : (s.startRun src).status = s.status := by cases s; rfl
@[simp] theorem State.startRun_done (src : Source) : (s.startRun src).done = s.done := by cases s; rfl
@[simp] theorem State.startRun_phase (src : Source) : (s.startRun src).phase = s.phase := by cases s; rfl
@[simp] theorem State.startRun_mbres (src : Source) : (s.startRun src).mbres = .none := by cases s; rfl
@[simp] theorem State.startRun_err (src : Source) : (s.startRun src).err = s.err := by cases s; rfl
@[simp] theorem State.startRun_op (src : Source) : (s.startRun src).op = s.op := by cases s; rfl
@[simp] theorem State.startRun_sr (src : Source) : (s.startRun src).sr = s.sr := by cases s; rfl
@[simp] theorem State.startRun_ones (src : Source) : (s.startRun src).ones = s.ones := by cases s; rfl
@[simp] theorem State.startRun_drawj (src : Source) : (s.startRun src).drawj = s.drawj := by cases s; rfl
@[simp] theorem State.startRun_biti (src : Source) : (s.startRun src).biti = s.biti := by cases s; rfl
@[simp] theorem State.startRun_nreq (src : Source) : (s.startRun src).nreq = s.nreq := by cases s; rfl
@[simp] theorem State.startRun_snap (src : Source) : (s.startRun src).snap = s.snap := by cases s; rfl
@[simp] theorem State.startRun_runcnt (src : Source) : (s.startRun src).runcnt = s.mbdraws := by cases s; rfl
@[simp] theorem State.startRun_runsrc (src : Source) : (s.startRun src).runsrc = src := by cases s; rfl
@[simp] theorem State.startRun_fa (src : Source) : (s.startRun src).fa = s.fa := by cases s; rfl
@[simp] theorem State.startRun_fb (src : Source) : (s.startRun src).fb = s.fb := by cases s; rfl
@[simp] theorem State.startRun_timer (src : Source) : (s.startRun src).timer = s.timer := by cases s; rfl
@[simp] theorem State.startRun_pending (src : Source) : (s.startRun src).pending = s.pending := by cases s; rfl
@[simp] theorem State.startRun_rdata (src : Source) : (s.startRun src).rdata = s.rdata := by cases s; rfl
@[simp] theorem State.startRun_freeCount (src : Source) : (s.startRun src).freeCount = s.freeCount := by cases s; rfl

/-! ### endDraw -/

@[simp] theorem State.endDraw_data : (s.endDraw).data = s.data := by cases s; rfl
@[simp] theorem State.endDraw_lstate : (s.endDraw).lstate = s.lstate := by cases s; rfl
@[simp] theorem State.endDraw_sum : (s.endDraw).sum = BitVec.ofInt 16 (s.sum.toInt + contrib s.data s.mbbits.toNat) := by cases s; rfl
@[simp] theorem State.endDraw_nbits : (s.endDraw).nbits = s.nbits + s.mbbits := by cases s; rfl
@[simp] theorem State.endDraw_dcnt : (s.endDraw).dcnt = s.dcnt + 1#16 := by cases s; rfl
@[simp] theorem State.endDraw_mbbits : (s.endDraw).mbbits = s.mbbits := by cases s; rfl
@[simp] theorem State.endDraw_mbdraws : (s.endDraw).mbdraws = s.mbdraws := by cases s; rfl
@[simp] theorem State.endDraw_mbbound : (s.endDraw).mbbound = s.mbbound := by cases s; rfl
@[simp] theorem State.endDraw_suma : (s.endDraw).suma = s.suma := by cases s; rfl
@[simp] theorem State.endDraw_sumb : (s.endDraw).sumb = s.sumb := by cases s; rfl
@[simp] theorem State.endDraw_status : (s.endDraw).status = s.status := by cases s; rfl
@[simp] theorem State.endDraw_done : (s.endDraw).done = s.done := by cases s; rfl
@[simp] theorem State.endDraw_phase : (s.endDraw).phase = s.phase := by cases s; rfl
@[simp] theorem State.endDraw_mbres : (s.endDraw).mbres = .none := by cases s; rfl
@[simp] theorem State.endDraw_err : (s.endDraw).err = s.err := by cases s; rfl
@[simp] theorem State.endDraw_op : (s.endDraw).op = s.op := by cases s; rfl
@[simp] theorem State.endDraw_sr : (s.endDraw).sr = s.sr := by cases s; rfl
@[simp] theorem State.endDraw_ones : (s.endDraw).ones = s.ones := by cases s; rfl
@[simp] theorem State.endDraw_drawj : (s.endDraw).drawj = s.drawj := by cases s; rfl
@[simp] theorem State.endDraw_biti : (s.endDraw).biti = s.biti := by cases s; rfl
@[simp] theorem State.endDraw_nreq : (s.endDraw).nreq = s.nreq := by cases s; rfl
@[simp] theorem State.endDraw_snap : (s.endDraw).snap = s.snap := by cases s; rfl
@[simp] theorem State.endDraw_runcnt : (s.endDraw).runcnt = s.runcnt - 1#16 := by cases s; rfl
@[simp] theorem State.endDraw_runsrc : (s.endDraw).runsrc = s.runsrc := by cases s; rfl
@[simp] theorem State.endDraw_fa : (s.endDraw).fa = s.fa := by cases s; rfl
@[simp] theorem State.endDraw_fb : (s.endDraw).fb = s.fb := by cases s; rfl
@[simp] theorem State.endDraw_timer : (s.endDraw).timer = s.timer := by cases s; rfl
@[simp] theorem State.endDraw_pending : (s.endDraw).pending = s.pending := by cases s; rfl
@[simp] theorem State.endDraw_rdata : (s.endDraw).rdata = s.rdata := by cases s; rfl
@[simp] theorem State.endDraw_freeCount : (s.endDraw).freeCount = s.freeCount := by cases s; rfl

/-! ### beginSample -/

@[simp] theorem State.beginSample_data (n : BitVec 5) : (s.beginSample n).data = s.data := by cases s; rfl
@[simp] theorem State.beginSample_lstate (n : BitVec 5) : (s.beginSample n).lstate = s.lstate := by cases s; rfl
@[simp] theorem State.beginSample_sum (n : BitVec 5) : (s.beginSample n).sum = s.sum := by cases s; rfl
@[simp] theorem State.beginSample_nbits (n : BitVec 5) : (s.beginSample n).nbits = s.nbits := by cases s; rfl
@[simp] theorem State.beginSample_dcnt (n : BitVec 5) : (s.beginSample n).dcnt = s.dcnt := by cases s; rfl
@[simp] theorem State.beginSample_mbbits (n : BitVec 5) : (s.beginSample n).mbbits = s.mbbits := by cases s; rfl
@[simp] theorem State.beginSample_mbdraws (n : BitVec 5) : (s.beginSample n).mbdraws = s.mbdraws := by cases s; rfl
@[simp] theorem State.beginSample_mbbound (n : BitVec 5) : (s.beginSample n).mbbound = s.mbbound := by cases s; rfl
@[simp] theorem State.beginSample_suma (n : BitVec 5) : (s.beginSample n).suma = s.suma := by cases s; rfl
@[simp] theorem State.beginSample_sumb (n : BitVec 5) : (s.beginSample n).sumb = s.sumb := by cases s; rfl
@[simp] theorem State.beginSample_status (n : BitVec 5) : (s.beginSample n).status = s.status := by cases s; rfl
@[simp] theorem State.beginSample_done (n : BitVec 5) : (s.beginSample n).done = s.done := by cases s; rfl
@[simp] theorem State.beginSample_phase (n : BitVec 5) : (s.beginSample n).phase = s.phase := by cases s; rfl
@[simp] theorem State.beginSample_mbres (n : BitVec 5) : (s.beginSample n).mbres = s.mbres := by cases s; rfl
@[simp] theorem State.beginSample_err (n : BitVec 5) : (s.beginSample n).err = s.err := by cases s; rfl
@[simp] theorem State.beginSample_op (n : BitVec 5) : (s.beginSample n).op = s.op := by cases s; rfl
@[simp] theorem State.beginSample_sr (n : BitVec 5) : (s.beginSample n).sr = 0#16 := by cases s; rfl
@[simp] theorem State.beginSample_ones (n : BitVec 5) : (s.beginSample n).ones = 0#3 := by cases s; rfl
@[simp] theorem State.beginSample_drawj (n : BitVec 5) : (s.beginSample n).drawj = 0#3 := by cases s; rfl
@[simp] theorem State.beginSample_biti (n : BitVec 5) : (s.beginSample n).biti = 0#5 := by cases s; rfl
@[simp] theorem State.beginSample_nreq (n : BitVec 5) : (s.beginSample n).nreq = n := by cases s; rfl
@[simp] theorem State.beginSample_snap (n : BitVec 5) : (s.beginSample n).snap = s.timer.tcfg := by cases s; rfl
@[simp] theorem State.beginSample_runcnt (n : BitVec 5) : (s.beginSample n).runcnt = s.runcnt := by cases s; rfl
@[simp] theorem State.beginSample_runsrc (n : BitVec 5) : (s.beginSample n).runsrc = s.runsrc := by cases s; rfl
@[simp] theorem State.beginSample_fa (n : BitVec 5) : (s.beginSample n).fa = s.fa := by cases s; rfl
@[simp] theorem State.beginSample_fb (n : BitVec 5) : (s.beginSample n).fb = s.fb := by cases s; rfl
@[simp] theorem State.beginSample_timer (n : BitVec 5) : (s.beginSample n).timer = { s.timer with tcfg := Config.cfgCapture } := by cases s; rfl
@[simp] theorem State.beginSample_pending (n : BitVec 5) : (s.beginSample n).pending = s.pending := by cases s; rfl
@[simp] theorem State.beginSample_rdata (n : BitVec 5) : (s.beginSample n).rdata = s.rdata := by cases s; rfl
@[simp] theorem State.beginSample_freeCount (n : BitVec 5) : (s.beginSample n).freeCount = s.freeCount := by cases s; rfl

/-! ### endSample -/

@[simp] theorem State.endSample_data : (s.endSample).data = s.sr := by cases s; rfl
@[simp] theorem State.endSample_lstate : (s.endSample).lstate = s.lstate := by cases s; rfl
@[simp] theorem State.endSample_sum : (s.endSample).sum = s.sum := by cases s; rfl
@[simp] theorem State.endSample_nbits : (s.endSample).nbits = s.nbits := by cases s; rfl
@[simp] theorem State.endSample_dcnt : (s.endSample).dcnt = s.dcnt := by cases s; rfl
@[simp] theorem State.endSample_mbbits : (s.endSample).mbbits = s.mbbits := by cases s; rfl
@[simp] theorem State.endSample_mbdraws : (s.endSample).mbdraws = s.mbdraws := by cases s; rfl
@[simp] theorem State.endSample_mbbound : (s.endSample).mbbound = s.mbbound := by cases s; rfl
@[simp] theorem State.endSample_suma : (s.endSample).suma = s.suma := by cases s; rfl
@[simp] theorem State.endSample_sumb : (s.endSample).sumb = s.sumb := by cases s; rfl
@[simp] theorem State.endSample_status : (s.endSample).status = s.status := by cases s; rfl
@[simp] theorem State.endSample_done : (s.endSample).done = s.done := by cases s; rfl
@[simp] theorem State.endSample_phase : (s.endSample).phase = s.phase := by cases s; rfl
@[simp] theorem State.endSample_mbres : (s.endSample).mbres = s.mbres := by cases s; rfl
@[simp] theorem State.endSample_err : (s.endSample).err = s.err := by cases s; rfl
@[simp] theorem State.endSample_op : (s.endSample).op = s.op := by cases s; rfl
@[simp] theorem State.endSample_sr : (s.endSample).sr = s.sr := by cases s; rfl
@[simp] theorem State.endSample_ones : (s.endSample).ones = s.ones := by cases s; rfl
@[simp] theorem State.endSample_drawj : (s.endSample).drawj = s.drawj := by cases s; rfl
@[simp] theorem State.endSample_biti : (s.endSample).biti = s.biti := by cases s; rfl
@[simp] theorem State.endSample_nreq : (s.endSample).nreq = s.nreq := by cases s; rfl
@[simp] theorem State.endSample_snap : (s.endSample).snap = s.snap := by cases s; rfl
@[simp] theorem State.endSample_runcnt : (s.endSample).runcnt = s.runcnt := by cases s; rfl
@[simp] theorem State.endSample_runsrc : (s.endSample).runsrc = s.runsrc := by cases s; rfl
@[simp] theorem State.endSample_fa : (s.endSample).fa = s.fa := by cases s; rfl
@[simp] theorem State.endSample_fb : (s.endSample).fb = s.fb := by cases s; rfl
@[simp] theorem State.endSample_timer : (s.endSample).timer = { tcfg := s.snap, tflag := Config.freeFlag s.freeCount, tlsb := Config.freeLsb s.freeCount } := by cases s; rfl
@[simp] theorem State.endSample_pending : (s.endSample).pending = s.pending := by cases s; rfl
@[simp] theorem State.endSample_rdata : (s.endSample).rdata = s.rdata := by cases s; rfl
@[simp] theorem State.endSample_freeCount : (s.endSample).freeCount = s.freeCount + 1 := by cases s; rfl

/-! ### countDraw -/

@[simp] theorem State.countDraw_data : (s.countDraw).data = s.data := by cases s; rfl
@[simp] theorem State.countDraw_lstate : (s.countDraw).lstate = s.lstate := by cases s; rfl
@[simp] theorem State.countDraw_sum : (s.countDraw).sum = s.sum := by cases s; rfl
@[simp] theorem State.countDraw_nbits : (s.countDraw).nbits = s.nbits := by cases s; rfl
@[simp] theorem State.countDraw_dcnt : (s.countDraw).dcnt = s.dcnt := by cases s; rfl
@[simp] theorem State.countDraw_mbbits : (s.countDraw).mbbits = s.mbbits := by cases s; rfl
@[simp] theorem State.countDraw_mbdraws : (s.countDraw).mbdraws = s.mbdraws := by cases s; rfl
@[simp] theorem State.countDraw_mbbound : (s.countDraw).mbbound = s.mbbound := by cases s; rfl
@[simp] theorem State.countDraw_suma : (s.countDraw).suma = s.suma := by cases s; rfl
@[simp] theorem State.countDraw_sumb : (s.countDraw).sumb = s.sumb := by cases s; rfl
@[simp] theorem State.countDraw_status : (s.countDraw).status = s.status := by cases s; rfl
@[simp] theorem State.countDraw_done : (s.countDraw).done = s.done := by cases s; rfl
@[simp] theorem State.countDraw_phase : (s.countDraw).phase = s.phase := by cases s; rfl
@[simp] theorem State.countDraw_mbres : (s.countDraw).mbres = s.mbres := by cases s; rfl
@[simp] theorem State.countDraw_err : (s.countDraw).err = s.err := by cases s; rfl
@[simp] theorem State.countDraw_op : (s.countDraw).op = s.op := by cases s; rfl
@[simp] theorem State.countDraw_sr : (s.countDraw).sr = s.sr := by cases s; rfl
@[simp] theorem State.countDraw_ones : (s.countDraw).ones = s.ones + BitVec.setWidth 3 (BitVec.ofBool s.timer.tlsb) := by cases s; rfl
@[simp] theorem State.countDraw_drawj : (s.countDraw).drawj = s.drawj + 1#3 := by cases s; rfl
@[simp] theorem State.countDraw_biti : (s.countDraw).biti = s.biti := by cases s; rfl
@[simp] theorem State.countDraw_nreq : (s.countDraw).nreq = s.nreq := by cases s; rfl
@[simp] theorem State.countDraw_snap : (s.countDraw).snap = s.snap := by cases s; rfl
@[simp] theorem State.countDraw_runcnt : (s.countDraw).runcnt = s.runcnt := by cases s; rfl
@[simp] theorem State.countDraw_runsrc : (s.countDraw).runsrc = s.runsrc := by cases s; rfl
@[simp] theorem State.countDraw_fa : (s.countDraw).fa = s.fa := by cases s; rfl
@[simp] theorem State.countDraw_fb : (s.countDraw).fb = s.fb := by cases s; rfl
@[simp] theorem State.countDraw_timer : (s.countDraw).timer = { s.timer with tflag := false } := by cases s; rfl
@[simp] theorem State.countDraw_pending : (s.countDraw).pending = s.pending := by cases s; rfl
@[simp] theorem State.countDraw_rdata : (s.countDraw).rdata = s.rdata := by cases s; rfl
@[simp] theorem State.countDraw_freeCount : (s.countDraw).freeCount = s.freeCount := by cases s; rfl

/-! ### shiftBit -/

@[simp] theorem State.shiftBit_data : (s.shiftBit).data = s.data := by cases s; rfl
@[simp] theorem State.shiftBit_lstate : (s.shiftBit).lstate = s.lstate := by cases s; rfl
@[simp] theorem State.shiftBit_sum : (s.shiftBit).sum = s.sum := by cases s; rfl
@[simp] theorem State.shiftBit_nbits : (s.shiftBit).nbits = s.nbits := by cases s; rfl
@[simp] theorem State.shiftBit_dcnt : (s.shiftBit).dcnt = s.dcnt := by cases s; rfl
@[simp] theorem State.shiftBit_mbbits : (s.shiftBit).mbbits = s.mbbits := by cases s; rfl
@[simp] theorem State.shiftBit_mbdraws : (s.shiftBit).mbdraws = s.mbdraws := by cases s; rfl
@[simp] theorem State.shiftBit_mbbound : (s.shiftBit).mbbound = s.mbbound := by cases s; rfl
@[simp] theorem State.shiftBit_suma : (s.shiftBit).suma = s.suma := by cases s; rfl
@[simp] theorem State.shiftBit_sumb : (s.shiftBit).sumb = s.sumb := by cases s; rfl
@[simp] theorem State.shiftBit_status : (s.shiftBit).status = s.status := by cases s; rfl
@[simp] theorem State.shiftBit_done : (s.shiftBit).done = s.done := by cases s; rfl
@[simp] theorem State.shiftBit_phase : (s.shiftBit).phase = s.phase := by cases s; rfl
@[simp] theorem State.shiftBit_mbres : (s.shiftBit).mbres = s.mbres := by cases s; rfl
@[simp] theorem State.shiftBit_err : (s.shiftBit).err = s.err := by cases s; rfl
@[simp] theorem State.shiftBit_op : (s.shiftBit).op = s.op := by cases s; rfl
@[simp] theorem State.shiftBit_sr : (s.shiftBit).sr = shiftVote s.sr s.ones.toNat := by cases s; rfl
@[simp] theorem State.shiftBit_ones : (s.shiftBit).ones = 0#3 := by cases s; rfl
@[simp] theorem State.shiftBit_drawj : (s.shiftBit).drawj = 0#3 := by cases s; rfl
@[simp] theorem State.shiftBit_biti : (s.shiftBit).biti = s.biti + 1#5 := by cases s; rfl
@[simp] theorem State.shiftBit_nreq : (s.shiftBit).nreq = s.nreq := by cases s; rfl
@[simp] theorem State.shiftBit_snap : (s.shiftBit).snap = s.snap := by cases s; rfl
@[simp] theorem State.shiftBit_runcnt : (s.shiftBit).runcnt = s.runcnt := by cases s; rfl
@[simp] theorem State.shiftBit_runsrc : (s.shiftBit).runsrc = s.runsrc := by cases s; rfl
@[simp] theorem State.shiftBit_fa : (s.shiftBit).fa = s.fa := by cases s; rfl
@[simp] theorem State.shiftBit_fb : (s.shiftBit).fb = s.fb := by cases s; rfl
@[simp] theorem State.shiftBit_timer : (s.shiftBit).timer = s.timer := by cases s; rfl
@[simp] theorem State.shiftBit_pending : (s.shiftBit).pending = s.pending := by cases s; rfl
@[simp] theorem State.shiftBit_rdata : (s.shiftBit).rdata = s.rdata := by cases s; rfl
@[simp] theorem State.shiftBit_freeCount : (s.shiftBit).freeCount = s.freeCount := by cases s; rfl

/-! ### acceptSample -/

@[simp] theorem State.acceptSample_data (n : BitVec 5) : (s.acceptSample n).data = s.data := by cases s; rfl
@[simp] theorem State.acceptSample_lstate (n : BitVec 5) : (s.acceptSample n).lstate = s.lstate := by cases s; rfl
@[simp] theorem State.acceptSample_sum (n : BitVec 5) : (s.acceptSample n).sum = s.sum := by cases s; rfl
@[simp] theorem State.acceptSample_nbits (n : BitVec 5) : (s.acceptSample n).nbits = s.nbits := by cases s; rfl
@[simp] theorem State.acceptSample_dcnt (n : BitVec 5) : (s.acceptSample n).dcnt = s.dcnt := by cases s; rfl
@[simp] theorem State.acceptSample_mbbits (n : BitVec 5) : (s.acceptSample n).mbbits = s.mbbits := by cases s; rfl
@[simp] theorem State.acceptSample_mbdraws (n : BitVec 5) : (s.acceptSample n).mbdraws = s.mbdraws := by cases s; rfl
@[simp] theorem State.acceptSample_mbbound (n : BitVec 5) : (s.acceptSample n).mbbound = s.mbbound := by cases s; rfl
@[simp] theorem State.acceptSample_suma (n : BitVec 5) : (s.acceptSample n).suma = s.suma := by cases s; rfl
@[simp] theorem State.acceptSample_sumb (n : BitVec 5) : (s.acceptSample n).sumb = s.sumb := by cases s; rfl
@[simp] theorem State.acceptSample_status (n : BitVec 5) : (s.acceptSample n).status = s.status := by cases s; rfl
@[simp] theorem State.acceptSample_done (n : BitVec 5) : (s.acceptSample n).done = s.done := by cases s; rfl
@[simp] theorem State.acceptSample_phase (n : BitVec 5) : (s.acceptSample n).phase = s.phase := by cases s; rfl
@[simp] theorem State.acceptSample_mbres (n : BitVec 5) : (s.acceptSample n).mbres = s.mbres := by cases s; rfl
@[simp] theorem State.acceptSample_err (n : BitVec 5) : (s.acceptSample n).err = s.err := by cases s; rfl
@[simp] theorem State.acceptSample_op (n : BitVec 5) : (s.acceptSample n).op = .sample := by cases s; rfl
@[simp] theorem State.acceptSample_sr (n : BitVec 5) : (s.acceptSample n).sr = 0#16 := by cases s; rfl
@[simp] theorem State.acceptSample_ones (n : BitVec 5) : (s.acceptSample n).ones = 0#3 := by cases s; rfl
@[simp] theorem State.acceptSample_drawj (n : BitVec 5) : (s.acceptSample n).drawj = 0#3 := by cases s; rfl
@[simp] theorem State.acceptSample_biti (n : BitVec 5) : (s.acceptSample n).biti = 0#5 := by cases s; rfl
@[simp] theorem State.acceptSample_nreq (n : BitVec 5) : (s.acceptSample n).nreq = n := by cases s; rfl
@[simp] theorem State.acceptSample_snap (n : BitVec 5) : (s.acceptSample n).snap = s.timer.tcfg := by cases s; rfl
@[simp] theorem State.acceptSample_runcnt (n : BitVec 5) : (s.acceptSample n).runcnt = s.runcnt := by cases s; rfl
@[simp] theorem State.acceptSample_runsrc (n : BitVec 5) : (s.acceptSample n).runsrc = s.runsrc := by cases s; rfl
@[simp] theorem State.acceptSample_fa (n : BitVec 5) : (s.acceptSample n).fa = s.fa := by cases s; rfl
@[simp] theorem State.acceptSample_fb (n : BitVec 5) : (s.acceptSample n).fb = s.fb := by cases s; rfl
@[simp] theorem State.acceptSample_timer (n : BitVec 5) : (s.acceptSample n).timer = { s.timer with tcfg := Config.cfgCapture } := by cases s; rfl
@[simp] theorem State.acceptSample_pending (n : BitVec 5) : (s.acceptSample n).pending = s.pending := by cases s; rfl
@[simp] theorem State.acceptSample_rdata (n : BitVec 5) : (s.acceptSample n).rdata = s.rdata := by cases s; rfl
@[simp] theorem State.acceptSample_freeCount (n : BitVec 5) : (s.acceptSample n).freeCount = s.freeCount := by cases s; rfl

/-! ### acceptMbrun -/

@[simp] theorem State.acceptMbrun_data (src : Source) : (s.acceptMbrun src).data = s.data := by cases s; rfl
@[simp] theorem State.acceptMbrun_lstate (src : Source) : (s.acceptMbrun src).lstate = s.lstate := by cases s; rfl
@[simp] theorem State.acceptMbrun_sum (src : Source) : (s.acceptMbrun src).sum = 0#16 := by cases s; rfl
@[simp] theorem State.acceptMbrun_nbits (src : Source) : (s.acceptMbrun src).nbits = 0#16 := by cases s; rfl
@[simp] theorem State.acceptMbrun_dcnt (src : Source) : (s.acceptMbrun src).dcnt = 0#16 := by cases s; rfl
@[simp] theorem State.acceptMbrun_mbbits (src : Source) : (s.acceptMbrun src).mbbits = s.mbbits := by cases s; rfl
@[simp] theorem State.acceptMbrun_mbdraws (src : Source) : (s.acceptMbrun src).mbdraws = s.mbdraws := by cases s; rfl
@[simp] theorem State.acceptMbrun_mbbound (src : Source) : (s.acceptMbrun src).mbbound = s.mbbound := by cases s; rfl
@[simp] theorem State.acceptMbrun_suma (src : Source) : (s.acceptMbrun src).suma = s.suma := by cases s; rfl
@[simp] theorem State.acceptMbrun_sumb (src : Source) : (s.acceptMbrun src).sumb = s.sumb := by cases s; rfl
@[simp] theorem State.acceptMbrun_status (src : Source) : (s.acceptMbrun src).status = s.status := by cases s; rfl
@[simp] theorem State.acceptMbrun_done (src : Source) : (s.acceptMbrun src).done = s.done := by cases s; rfl
@[simp] theorem State.acceptMbrun_phase (src : Source) : (s.acceptMbrun src).phase = s.phase := by cases s; rfl
@[simp] theorem State.acceptMbrun_mbres (src : Source) : (s.acceptMbrun src).mbres = .none := by cases s; rfl
@[simp] theorem State.acceptMbrun_err (src : Source) : (s.acceptMbrun src).err = s.err := by cases s; rfl
@[simp] theorem State.acceptMbrun_op (src : Source) : (s.acceptMbrun src).op = .mbrun := by cases s; rfl
@[simp] theorem State.acceptMbrun_sr (src : Source) : (s.acceptMbrun src).sr = s.sr := by cases s; rfl
@[simp] theorem State.acceptMbrun_ones (src : Source) : (s.acceptMbrun src).ones = s.ones := by cases s; rfl
@[simp] theorem State.acceptMbrun_drawj (src : Source) : (s.acceptMbrun src).drawj = s.drawj := by cases s; rfl
@[simp] theorem State.acceptMbrun_biti (src : Source) : (s.acceptMbrun src).biti = s.biti := by cases s; rfl
@[simp] theorem State.acceptMbrun_nreq (src : Source) : (s.acceptMbrun src).nreq = s.nreq := by cases s; rfl
@[simp] theorem State.acceptMbrun_snap (src : Source) : (s.acceptMbrun src).snap = s.snap := by cases s; rfl
@[simp] theorem State.acceptMbrun_runcnt (src : Source) : (s.acceptMbrun src).runcnt = s.mbdraws := by cases s; rfl
@[simp] theorem State.acceptMbrun_runsrc (src : Source) : (s.acceptMbrun src).runsrc = src := by cases s; rfl
@[simp] theorem State.acceptMbrun_fa (src : Source) : (s.acceptMbrun src).fa = s.fa := by cases s; rfl
@[simp] theorem State.acceptMbrun_fb (src : Source) : (s.acceptMbrun src).fb = s.fb := by cases s; rfl
@[simp] theorem State.acceptMbrun_timer (src : Source) : (s.acceptMbrun src).timer = s.timer := by cases s; rfl
@[simp] theorem State.acceptMbrun_pending (src : Source) : (s.acceptMbrun src).pending = s.pending := by cases s; rfl
@[simp] theorem State.acceptMbrun_rdata (src : Source) : (s.acceptMbrun src).rdata = s.rdata := by cases s; rfl
@[simp] theorem State.acceptMbrun_freeCount (src : Source) : (s.acceptMbrun src).freeCount = s.freeCount := by cases s; rfl

/-! ### acceptSelftest -/

@[simp] theorem State.acceptSelftest_data : (s.acceptSelftest).data = s.data := by cases s; rfl
@[simp] theorem State.acceptSelftest_lstate : (s.acceptSelftest).lstate = s.lstate := by cases s; rfl
@[simp] theorem State.acceptSelftest_sum : (s.acceptSelftest).sum = s.sum := by cases s; rfl
@[simp] theorem State.acceptSelftest_nbits : (s.acceptSelftest).nbits = s.nbits := by cases s; rfl
@[simp] theorem State.acceptSelftest_dcnt : (s.acceptSelftest).dcnt = s.dcnt := by cases s; rfl
@[simp] theorem State.acceptSelftest_mbbits : (s.acceptSelftest).mbbits = s.mbbits := by cases s; rfl
@[simp] theorem State.acceptSelftest_mbdraws : (s.acceptSelftest).mbdraws = s.mbdraws := by cases s; rfl
@[simp] theorem State.acceptSelftest_mbbound : (s.acceptSelftest).mbbound = s.mbbound := by cases s; rfl
@[simp] theorem State.acceptSelftest_suma : (s.acceptSelftest).suma = s.suma := by cases s; rfl
@[simp] theorem State.acceptSelftest_sumb : (s.acceptSelftest).sumb = s.sumb := by cases s; rfl
@[simp] theorem State.acceptSelftest_status : (s.acceptSelftest).status = s.status := by cases s; rfl
@[simp] theorem State.acceptSelftest_done : (s.acceptSelftest).done = s.done := by cases s; rfl
@[simp] theorem State.acceptSelftest_phase : (s.acceptSelftest).phase = .samplingSeed := by cases s; rfl
@[simp] theorem State.acceptSelftest_mbres : (s.acceptSelftest).mbres = s.mbres := by cases s; rfl
@[simp] theorem State.acceptSelftest_err : (s.acceptSelftest).err = s.err := by cases s; rfl
@[simp] theorem State.acceptSelftest_op : (s.acceptSelftest).op = .selftest := by cases s; rfl
@[simp] theorem State.acceptSelftest_sr : (s.acceptSelftest).sr = 0#16 := by cases s; rfl
@[simp] theorem State.acceptSelftest_ones : (s.acceptSelftest).ones = 0#3 := by cases s; rfl
@[simp] theorem State.acceptSelftest_drawj : (s.acceptSelftest).drawj = 0#3 := by cases s; rfl
@[simp] theorem State.acceptSelftest_biti : (s.acceptSelftest).biti = 0#5 := by cases s; rfl
@[simp] theorem State.acceptSelftest_nreq : (s.acceptSelftest).nreq = 16#5 := by cases s; rfl
@[simp] theorem State.acceptSelftest_snap : (s.acceptSelftest).snap = s.timer.tcfg := by cases s; rfl
@[simp] theorem State.acceptSelftest_runcnt : (s.acceptSelftest).runcnt = s.runcnt := by cases s; rfl
@[simp] theorem State.acceptSelftest_runsrc : (s.acceptSelftest).runsrc = s.runsrc := by cases s; rfl
@[simp] theorem State.acceptSelftest_fa : (s.acceptSelftest).fa = s.fa := by cases s; rfl
@[simp] theorem State.acceptSelftest_fb : (s.acceptSelftest).fb = s.fb := by cases s; rfl
@[simp] theorem State.acceptSelftest_timer : (s.acceptSelftest).timer = { s.timer with tcfg := Config.cfgCapture } := by cases s; rfl
@[simp] theorem State.acceptSelftest_pending : (s.acceptSelftest).pending = s.pending := by cases s; rfl
@[simp] theorem State.acceptSelftest_rdata : (s.acceptSelftest).rdata = s.rdata := by cases s; rfl
@[simp] theorem State.acceptSelftest_freeCount : (s.acceptSelftest).freeCount = s.freeCount := by cases s; rfl

/-! ### enterHardwareTest -/

@[simp] theorem State.enterHardwareTest_data : (s.enterHardwareTest).data = s.data := by cases s; rfl
@[simp] theorem State.enterHardwareTest_lstate : (s.enterHardwareTest).lstate = s.data := by cases s; rfl
@[simp] theorem State.enterHardwareTest_sum : (s.enterHardwareTest).sum = 0#16 := by cases s; rfl
@[simp] theorem State.enterHardwareTest_nbits : (s.enterHardwareTest).nbits = 0#16 := by cases s; rfl
@[simp] theorem State.enterHardwareTest_dcnt : (s.enterHardwareTest).dcnt = 0#16 := by cases s; rfl
@[simp] theorem State.enterHardwareTest_mbbits : (s.enterHardwareTest).mbbits = BitVec.ofNat 16 Config.cfgA.bits := by cases s; rfl
@[simp] theorem State.enterHardwareTest_mbdraws : (s.enterHardwareTest).mbdraws = BitVec.ofNat 16 Config.cfgA.draws := by cases s; rfl
@[simp] theorem State.enterHardwareTest_mbbound : (s.enterHardwareTest).mbbound = BitVec.ofNat 16 Config.cfgA.bound := by cases s; rfl
@[simp] theorem State.enterHardwareTest_suma : (s.enterHardwareTest).suma = s.suma := by cases s; rfl
@[simp] theorem State.enterHardwareTest_sumb : (s.enterHardwareTest).sumb = s.sumb := by cases s; rfl
@[simp] theorem State.enterHardwareTest_status : (s.enterHardwareTest).status = s.status := by cases s; rfl
@[simp] theorem State.enterHardwareTest_done : (s.enterHardwareTest).done = s.done := by cases s; rfl
@[simp] theorem State.enterHardwareTest_phase : (s.enterHardwareTest).phase = .testingHardwareSource := by cases s; rfl
@[simp] theorem State.enterHardwareTest_mbres : (s.enterHardwareTest).mbres = .none := by cases s; rfl
@[simp] theorem State.enterHardwareTest_err : (s.enterHardwareTest).err = s.err := by cases s; rfl
@[simp] theorem State.enterHardwareTest_op : (s.enterHardwareTest).op = s.op := by cases s; rfl
@[simp] theorem State.enterHardwareTest_sr : (s.enterHardwareTest).sr = s.sr := by cases s; rfl
@[simp] theorem State.enterHardwareTest_ones : (s.enterHardwareTest).ones = s.ones := by cases s; rfl
@[simp] theorem State.enterHardwareTest_drawj : (s.enterHardwareTest).drawj = s.drawj := by cases s; rfl
@[simp] theorem State.enterHardwareTest_biti : (s.enterHardwareTest).biti = s.biti := by cases s; rfl
@[simp] theorem State.enterHardwareTest_nreq : (s.enterHardwareTest).nreq = s.nreq := by cases s; rfl
@[simp] theorem State.enterHardwareTest_snap : (s.enterHardwareTest).snap = s.snap := by cases s; rfl
@[simp] theorem State.enterHardwareTest_runcnt : (s.enterHardwareTest).runcnt = BitVec.ofNat 16 Config.cfgA.draws := by cases s; rfl
@[simp] theorem State.enterHardwareTest_runsrc : (s.enterHardwareTest).runsrc = .hardware := by cases s; rfl
@[simp] theorem State.enterHardwareTest_fa : (s.enterHardwareTest).fa = s.fa := by cases s; rfl
@[simp] theorem State.enterHardwareTest_fb : (s.enterHardwareTest).fb = s.fb := by cases s; rfl
@[simp] theorem State.enterHardwareTest_timer : (s.enterHardwareTest).timer = s.timer := by cases s; rfl
@[simp] theorem State.enterHardwareTest_pending : (s.enterHardwareTest).pending = s.pending := by cases s; rfl
@[simp] theorem State.enterHardwareTest_rdata : (s.enterHardwareTest).rdata = s.rdata := by cases s; rfl
@[simp] theorem State.enterHardwareTest_freeCount : (s.enterHardwareTest).freeCount = s.freeCount := by cases s; rfl

/-! ### enterStreamTest -/

@[simp] theorem State.enterStreamTest_data : (s.enterStreamTest).data = s.data := by cases s; rfl
@[simp] theorem State.enterStreamTest_lstate : (s.enterStreamTest).lstate = s.lstate := by cases s; rfl
@[simp] theorem State.enterStreamTest_sum : (s.enterStreamTest).sum = 0#16 := by cases s; rfl
@[simp] theorem State.enterStreamTest_nbits : (s.enterStreamTest).nbits = 0#16 := by cases s; rfl
@[simp] theorem State.enterStreamTest_dcnt : (s.enterStreamTest).dcnt = 0#16 := by cases s; rfl
@[simp] theorem State.enterStreamTest_mbbits : (s.enterStreamTest).mbbits = BitVec.ofNat 16 Config.cfgB.bits := by cases s; rfl
@[simp] theorem State.enterStreamTest_mbdraws : (s.enterStreamTest).mbdraws = BitVec.ofNat 16 Config.cfgB.draws := by cases s; rfl
@[simp] theorem State.enterStreamTest_mbbound : (s.enterStreamTest).mbbound = BitVec.ofNat 16 Config.cfgB.bound := by cases s; rfl
@[simp] theorem State.enterStreamTest_suma : (s.enterStreamTest).suma = s.sum := by cases s; rfl
@[simp] theorem State.enterStreamTest_sumb : (s.enterStreamTest).sumb = s.sumb := by cases s; rfl
@[simp] theorem State.enterStreamTest_status : (s.enterStreamTest).status = s.status := by cases s; rfl
@[simp] theorem State.enterStreamTest_done : (s.enterStreamTest).done = s.done := by cases s; rfl
@[simp] theorem State.enterStreamTest_phase : (s.enterStreamTest).phase = .testingStream := by cases s; rfl
@[simp] theorem State.enterStreamTest_mbres : (s.enterStreamTest).mbres = .none := by cases s; rfl
@[simp] theorem State.enterStreamTest_err : (s.enterStreamTest).err = s.err := by cases s; rfl
@[simp] theorem State.enterStreamTest_op : (s.enterStreamTest).op = s.op := by cases s; rfl
@[simp] theorem State.enterStreamTest_sr : (s.enterStreamTest).sr = s.sr := by cases s; rfl
@[simp] theorem State.enterStreamTest_ones : (s.enterStreamTest).ones = s.ones := by cases s; rfl
@[simp] theorem State.enterStreamTest_drawj : (s.enterStreamTest).drawj = s.drawj := by cases s; rfl
@[simp] theorem State.enterStreamTest_biti : (s.enterStreamTest).biti = s.biti := by cases s; rfl
@[simp] theorem State.enterStreamTest_nreq : (s.enterStreamTest).nreq = s.nreq := by cases s; rfl
@[simp] theorem State.enterStreamTest_snap : (s.enterStreamTest).snap = s.snap := by cases s; rfl
@[simp] theorem State.enterStreamTest_runcnt : (s.enterStreamTest).runcnt = BitVec.ofNat 16 Config.cfgB.draws := by cases s; rfl
@[simp] theorem State.enterStreamTest_runsrc : (s.enterStreamTest).runsrc = .stream := by cases s; rfl
@[simp] theorem State.enterStreamTest_fa : (s.enterStreamTest).fa = decide (verdictOf s.sum s.mbbound = .fail) := by cases s; rfl
@[simp] theorem State.enterStreamTest_fb : (s.enterStreamTest).fb = s.fb := by cases s; rfl
@[simp] theorem State.enterStreamTest_timer : (s.enterStreamTest).timer = s.timer := by cases s; rfl
@[simp] theorem State.enterStreamTest_pending : (s.enterStreamTest).pending = s.pending := by cases s; rfl
@[simp] theorem State.enterStreamTest_rdata : (s.enterStreamTest).rdata = s.rdata := by cases s; rfl
@[simp] theorem State.enterStreamTest_freeCount : (s.enterStreamTest).freeCount = s.freeCount := by cases s; rfl

/-! ### enterDone -/

@[simp] theorem State.enterDone_data : (s.enterDone).data = s.data := by cases s; rfl
@[simp] theorem State.enterDone_lstate : (s.enterDone).lstate = s.lstate := by cases s; rfl
@[simp] theorem State.enterDone_sum : (s.enterDone).sum = s.sum := by cases s; rfl
@[simp] theorem State.enterDone_nbits : (s.enterDone).nbits = s.nbits := by cases s; rfl
@[simp] theorem State.enterDone_dcnt : (s.enterDone).dcnt = s.dcnt := by cases s; rfl
@[simp] theorem State.enterDone_mbbits : (s.enterDone).mbbits = s.mbbits := by cases s; rfl
@[simp] theorem State.enterDone_mbdraws : (s.enterDone).mbdraws = s.mbdraws := by cases s; rfl
@[simp] theorem State.enterDone_mbbound : (s.enterDone).mbbound = s.mbbound := by cases s; rfl
@[simp] theorem State.enterDone_suma : (s.enterDone).suma = s.suma := by cases s; rfl
@[simp] theorem State.enterDone_sumb : (s.enterDone).sumb = s.sum := by cases s; rfl
@[simp] theorem State.enterDone_status : (s.enterDone).status = publishedStatus s.fa (decide (verdictOf s.sum s.mbbound = .fail)) := by cases s; rfl
@[simp] theorem State.enterDone_done : (s.enterDone).done = true := by cases s; rfl
@[simp] theorem State.enterDone_phase : (s.enterDone).phase = .done := by cases s; rfl
@[simp] theorem State.enterDone_mbres : (s.enterDone).mbres = verdictOf s.sum s.mbbound := by cases s; rfl
@[simp] theorem State.enterDone_err : (s.enterDone).err = s.err := by cases s; rfl
@[simp] theorem State.enterDone_op : (s.enterDone).op = .idle := by cases s; rfl
@[simp] theorem State.enterDone_sr : (s.enterDone).sr = s.sr := by cases s; rfl
@[simp] theorem State.enterDone_ones : (s.enterDone).ones = s.ones := by cases s; rfl
@[simp] theorem State.enterDone_drawj : (s.enterDone).drawj = s.drawj := by cases s; rfl
@[simp] theorem State.enterDone_biti : (s.enterDone).biti = s.biti := by cases s; rfl
@[simp] theorem State.enterDone_nreq : (s.enterDone).nreq = s.nreq := by cases s; rfl
@[simp] theorem State.enterDone_snap : (s.enterDone).snap = s.snap := by cases s; rfl
@[simp] theorem State.enterDone_runcnt : (s.enterDone).runcnt = s.runcnt := by cases s; rfl
@[simp] theorem State.enterDone_runsrc : (s.enterDone).runsrc = s.runsrc := by cases s; rfl
@[simp] theorem State.enterDone_fa : (s.enterDone).fa = s.fa := by cases s; rfl
@[simp] theorem State.enterDone_fb : (s.enterDone).fb = decide (verdictOf s.sum s.mbbound = .fail) := by cases s; rfl
@[simp] theorem State.enterDone_timer : (s.enterDone).timer = s.timer := by cases s; rfl
@[simp] theorem State.enterDone_pending : (s.enterDone).pending = s.pending := by cases s; rfl
@[simp] theorem State.enterDone_rdata : (s.enterDone).rdata = s.rdata := by cases s; rfl
@[simp] theorem State.enterDone_freeCount : (s.enterDone).freeCount = s.freeCount := by cases s; rfl

/-! ### resetBlock -/

@[simp] theorem State.resetBlock_data : s.resetBlock.data = State.reset.data := by cases s; rfl
@[simp] theorem State.resetBlock_lstate : s.resetBlock.lstate = State.reset.lstate := by cases s; rfl
@[simp] theorem State.resetBlock_sum : s.resetBlock.sum = State.reset.sum := by cases s; rfl
@[simp] theorem State.resetBlock_nbits : s.resetBlock.nbits = State.reset.nbits := by cases s; rfl
@[simp] theorem State.resetBlock_dcnt : s.resetBlock.dcnt = State.reset.dcnt := by cases s; rfl
@[simp] theorem State.resetBlock_mbbits : s.resetBlock.mbbits = State.reset.mbbits := by cases s; rfl
@[simp] theorem State.resetBlock_mbdraws : s.resetBlock.mbdraws = State.reset.mbdraws := by cases s; rfl
@[simp] theorem State.resetBlock_mbbound : s.resetBlock.mbbound = State.reset.mbbound := by cases s; rfl
@[simp] theorem State.resetBlock_suma : s.resetBlock.suma = State.reset.suma := by cases s; rfl
@[simp] theorem State.resetBlock_sumb : s.resetBlock.sumb = State.reset.sumb := by cases s; rfl
@[simp] theorem State.resetBlock_status : s.resetBlock.status = State.reset.status := by cases s; rfl
@[simp] theorem State.resetBlock_done : s.resetBlock.done = State.reset.done := by cases s; rfl
@[simp] theorem State.resetBlock_phase : s.resetBlock.phase = State.reset.phase := by cases s; rfl
@[simp] theorem State.resetBlock_mbres : s.resetBlock.mbres = State.reset.mbres := by cases s; rfl
@[simp] theorem State.resetBlock_err : s.resetBlock.err = State.reset.err := by cases s; rfl
@[simp] theorem State.resetBlock_op : s.resetBlock.op = State.reset.op := by cases s; rfl
@[simp] theorem State.resetBlock_sr : s.resetBlock.sr = State.reset.sr := by cases s; rfl
@[simp] theorem State.resetBlock_ones : s.resetBlock.ones = State.reset.ones := by cases s; rfl
@[simp] theorem State.resetBlock_drawj : s.resetBlock.drawj = State.reset.drawj := by cases s; rfl
@[simp] theorem State.resetBlock_biti : s.resetBlock.biti = State.reset.biti := by cases s; rfl
@[simp] theorem State.resetBlock_nreq : s.resetBlock.nreq = State.reset.nreq := by cases s; rfl
@[simp] theorem State.resetBlock_snap : s.resetBlock.snap = State.reset.snap := by cases s; rfl
@[simp] theorem State.resetBlock_runcnt : s.resetBlock.runcnt = State.reset.runcnt := by cases s; rfl
@[simp] theorem State.resetBlock_runsrc : s.resetBlock.runsrc = State.reset.runsrc := by cases s; rfl
@[simp] theorem State.resetBlock_fa : s.resetBlock.fa = State.reset.fa := by cases s; rfl
@[simp] theorem State.resetBlock_fb : s.resetBlock.fb = State.reset.fb := by cases s; rfl
@[simp] theorem State.resetBlock_timer : s.resetBlock.timer = s.timer := by cases s; rfl
@[simp] theorem State.resetBlock_pending : s.resetBlock.pending = s.pending := by cases s; rfl
@[simp] theorem State.resetBlock_rdata : s.resetBlock.rdata = s.rdata := by cases s; rfl
@[simp] theorem State.resetBlock_freeCount : s.resetBlock.freeCount = s.freeCount := by cases s; rfl

/-! ### BUSY and sampling after the updates that move them -/

@[simp] theorem State.raise_busy (e : ErrCode) : (s.raise e).busy = s.busy := rfl
@[simp] theorem State.raise_sampling (e : ErrCode) : (s.raise e).sampling = s.sampling := rfl
@[simp] theorem State.capture_busy (b : Bool) : (s.capture b).busy = s.busy := rfl
@[simp] theorem State.capture_sampling (b : Bool) : (s.capture b).sampling = s.sampling := rfl
@[simp] theorem State.acceptSample_busy (n : BitVec 5) : (s.acceptSample n).busy = true := rfl
@[simp] theorem State.acceptMbrun_busy (src : Source) : (s.acceptMbrun src).busy = true := rfl
@[simp] theorem State.acceptSelftest_busy : s.acceptSelftest.busy = true := rfl
@[simp] theorem State.acceptSelftest_sampling : s.acceptSelftest.sampling = true := rfl
@[simp] theorem State.enterDone_busy : s.enterDone.busy = false := rfl
@[simp] theorem State.resetBlock_busy : s.resetBlock.busy = false := rfl
@[simp] theorem State.resetBlock_sampling : s.resetBlock.sampling = false := rfl

end Sys2Proof.Machine
end

