-- ==== Sys2Proof/Laws/Ops.lean ====
section
/-! SUPPORT. For each shared operation one lemma that says once everything it can do, to be cited instead of
unfolding the operation. -/

namespace Sys2Proof.Machine

variable {s t : State}

theorem State.busy_eq_true : s.busy = true ↔ s.op ≠ .idle := by simp [State.busy]

theorem State.busy_eq_false : s.busy = false ↔ s.op = .idle := by simp [State.busy]

theorem State.sampling_eq_true : s.sampling = true ↔ s.op ≠ .idle ∧ s.biti.toNat < s.nreq.toNat := by
  simp [State.sampling, State.busy]

/-! ## The checks -/

theorem sampleOperandOk_eq_true {n : BitVec 5} :
    sampleOperandOk n = true ↔ 1 ≤ n.toNat ∧ n.toNat ≤ 16 := by
  rw [sampleOperandOk, legalCount, Bool.and_eq_true, decide_eq_true_eq, decide_eq_true_eq]; rfl

theorem mbbitsWriteOk_eq_true {v : Word} :
    mbbitsWriteOk v = true ↔ 1 ≤ v.toNat ∧ v.toNat ≤ 16 := by
  rw [mbbitsWriteOk, Bool.and_eq_true, decide_eq_true_eq, decide_eq_true_eq]

theorem State.accFits_eq_true : s.accFits = true ↔ s.nbits.toNat + s.mbbits.toNat ≤ 32767 :=
  decide_eq_true_iff

theorem State.runFits_eq_true : s.runFits = true ↔ s.mbbits.toNat * s.mbdraws.toNat ≤ 32767 :=
  decide_eq_true_iff

theorem State.selftestFresh_eq_true : s.selftestFresh = true ↔ s.phase = .idle :=
  decide_eq_true_iff

/-! ## Commands -/

/-- A presented command answers a next state: the refusal E_BUSY, or its body's. -/
theorem present_eq_next {body : State → State} :
    present s body = .next t ↔
      (s.busy = true ∧ t = s.raise .busy) ∨ (s.busy = false ∧ t = body s) := by
  cases h : s.busy <;> simp [present, h, eq_comm]

/-- What each command does when the block is idle. -/
def execBody (i : Instr) (s : State) : State :=
  match i with
  | .nop => s
  | .sample n => if sampleOperandOk n then s.acceptSample n else s.raise .operand
  | .seed => s.loadSeed
  | .next => s.advanceStream
  | .mbclr => s.clearTest
  | .mbacc => if s.accFits then s.accumulate else s.raise .overrun
  | .mbjudge => s.judge
  | .mbrun src => if s.runFits then s.acceptMbrun src else s.raise .operand
  | .selftest => if s.selftestFresh then s.acceptSelftest else s.raise .repeated
  | .clrerr => s.clearErr

theorem exec_eq_present (i : Instr) (s : State) : exec i s = present s (execBody i) := by
  cases i <;> rfl

/-- A command answers a next state, in every state: the refusal E_BUSY, or its body's. -/
theorem exec_eq_next {i : Instr} :
    exec i s = .next t ↔
      (s.busy = true ∧ t = s.raise .busy) ∨ (s.busy = false ∧ t = execBody i s) := by
  rw [exec_eq_present, present_eq_next]

/-- A command leaves the model's own fields alone. -/
theorem execBody_keeps_schedule (i : Instr) (s : State) :
    (execBody i s).pending = s.pending ∧ (execBody i s).rdata = s.rdata ∧
      (execBody i s).freeCount = s.freeCount := by
  cases i <;> simp only [execBody] <;> (try split) <;> simp

/-! ## Host accesses -/

/-- A host read delivers a value and touches nothing else but the count of free values. -/
theorem State.memRead_eq (s : State) (i : RegIndex) :
    s.memRead i = { s with rdata := (s.memRead i).rdata, freeCount := (s.memRead i).freeCount } := by
  unfold State.memRead; split <;> rfl

/-- The write of a register: it stores, or it is refused, or it is ignored. -/
theorem State.writeReg_cases (s : State) (r : Reg) (v : Word) :
    s.writeReg r v = s ∨ (r = .data ∧ s.writeReg r v = { s with data := v }) ∨
    (r = .mbbits ∧ mbbitsWriteOk v = true ∧ s.writeReg r v = { s with mbbits := v }) ∨
    (r = .mbbits ∧ mbbitsWriteOk v = false ∧ s.writeReg r v = s.raise .operand) ∨
    (r = .mbdraws ∧ s.writeReg r v = { s with mbdraws := v }) ∨
    (r = .mbbound ∧ s.writeReg r v = { s with mbbound := v }) := by
  cases r <;> simp [State.writeReg]
  cases h : mbbitsWriteOk v <;> simp

/-! ## The block's own steps -/

/-- A draw: the fifth votes, the others only count. -/
theorem State.takeDraw_cases (s : State) :
    (s.countDraw.drawj.toNat < 5 ∧ s.takeDraw = s.countDraw) ∨
    (5 ≤ s.countDraw.drawj.toNat ∧ s.takeDraw = s.countDraw.voteBit) := by
  unfold State.takeDraw
  split
  · rename_i h; exact .inl ⟨h, rfl⟩
  · rename_i h; exact .inr ⟨Nat.le_of_not_lt h, rfl⟩

/-- A vote: the next bit begins, or the SAMPLE ends. -/
theorem State.voteBit_cases (s : State) :
    (s.shiftBit.biti.toNat < s.nreq.toNat ∧ s.voteBit = s.shiftBit) ∨
    (s.nreq.toNat ≤ s.shiftBit.biti.toNat ∧ s.voteBit = s.shiftBit.endSample) := by
  unfold State.voteBit
  split
  · rename_i h; exact .inl ⟨h, rfl⟩
  · rename_i h; exact .inr ⟨Nat.le_of_not_lt h, rfl⟩

/-- The block's turn, once for all. -/
theorem State.blockStep_cases (s : State) :
    (s.op = .idle ∧ s.blockStep = s) ∨
    (s.sampling = true ∧ s.timer.tflag = false ∧ s.blockStep = s) ∨
    (s.sampling = true ∧ s.timer.tflag = true ∧ s.blockStep = s.stepDraw) ∨
    (s.op ≠ .idle ∧ s.sampling = false ∧ s.runcnt.toNat = 0 ∧ s.blockStep = s.endRun) ∨
    (s.op ≠ .idle ∧ s.sampling = false ∧ s.runcnt.toNat ≠ 0 ∧ s.blockStep = s.stepDrawWord) := by
  unfold State.blockStep
  by_cases hb : s.op = .idle
  · simp [State.busy, hb]
  · have hbt : s.busy = true := State.busy_eq_true.mpr hb
    cases hs : s.sampling <;> cases hf : s.timer.tflag <;> by_cases hr : s.runcnt.toNat = 0 <;>
      simp [hbt, hb, State.captured, hf, hr]

/-! ## One step -/

/-- What a host write can do (20_memory.md R42). -/
theorem memWrite_cases (i : RegIndex) (v : Word) (s : State) :
    (s.busy = true ∧ memWrite i v s = .next (s.raise .busy)) ∨
    (s.busy = false ∧ regOf i = .cmd ∧ (∃ c, decode v = .ok c ∧ memWrite i v s = exec c s)) ∨
    (s.busy = false ∧ regOf i = .cmd ∧ (∃ e, decode v = .error e) ∧
      memWrite i v s = .next (s.raise .illegal)) ∨
    (s.busy = false ∧ regOf i ≠ .cmd ∧ memWrite i v s = .next (s.writeReg (regOf i) v)) := by
  unfold memWrite issueCommand
  cases hb : s.busy <;> by_cases hr : regOf i = .cmd <;> cases hd : decode v <;> simp [hr]

/-- What one step can do, by the agent whose turn it is. -/
theorem step_cases (h : step s = .next t) :
    ((s.pending = [] ∨ s.pending.head? = some .block) ∧
      t = (s.withPending s.pending.tail).blockStep) ∨
    (∃ i v, s.pending.head? = some (.write i v) ∧
      memWrite i v (s.withPending s.pending.tail) = .next t) ∨
    (∃ i, s.pending.head? = some (.read i) ∧
      t = (s.withPending s.pending.tail).memRead i) ∨
    (∃ b, s.pending.head? = some (.capture b) ∧
      t = (s.withPending s.pending.tail).capture b) ∨
    (∃ m, s.pending.head? = some (.otherConsumer m) ∧ s.sampling = false ∧
      t = { s.withPending s.pending.tail with timer := m }) ∨
    (s.pending.head? = some .reset ∧
      t = (s.withPending s.pending.tail).resetBlock) := by
  unfold step takeTurn at h
  split at h
  · rename_i hp
    cases h
    exact .inl ⟨.inl hp, by rw [hp, List.tail_nil, ← hp]; rfl⟩
  · rename_i e rest hp
    rw [hp]; simp only [List.head?_cons, List.tail_cons]
    cases e with
    | write i v => exact .inr (.inl ⟨i, v, rfl, h⟩)
    | read i => cases h; exact .inr (.inr (.inl ⟨i, rfl, rfl⟩))
    | block => cases h; exact .inl ⟨.inr rfl, rfl⟩
    | capture b => cases h; exact .inr (.inr (.inr (.inl ⟨b, rfl, rfl⟩)))
    | otherConsumer m =>
      have hs : (s.withPending rest).sampling = s.sampling := rfl
      simp only [deliver, useTimer, hs] at h
      split at h
      · cases h
      · rename_i hn; cases h
        exact .inr (.inr (.inr (.inr (.inl ⟨m, rfl, by simpa using hn, rfl⟩))))
    | reset => cases h; exact .inr (.inr (.inr (.inr (.inr ⟨rfl, rfl⟩))))

/-- No step raises a fault. -/
theorem step_no_fault (s : State) (f : Fault) : step s ≠ .fault f := nomatch f

end Sys2Proof.Machine
end

