-- ==== Sys2Proof/Laws/PerInstr.lean ====
section
/-! SUPPORT. A fact about every command as syntax, one lemma per constructor: its encoding carries its row's
fixed bits (spec/opcode_table.json, `mask` and `match`). -/

namespace Sys2Proof.Laws.EncodingMatchesTable

/-- The row's `mask` (spec/opcode_table.json). -/
def rowMask (i : Instr) : Word :=
  match i with
  | .nop => 0xFFFF#16
  | .sample _ => 0xFFE0#16
  | .seed => 0xFFFF#16
  | .next => 0xFFFF#16
  | .mbclr => 0xFFFF#16
  | .mbacc => 0xFFFF#16
  | .mbjudge => 0xFFFF#16
  | .mbrun _ => 0xFFFE#16
  | .selftest => 0xFFFF#16
  | .clrerr => 0xFFFF#16

/-- The row's `match` (spec/opcode_table.json). -/
def rowMatch (i : Instr) : Word :=
  match i with
  | .nop => 0x0000#16
  | .sample _ => 0x1000#16
  | .seed => 0x2000#16
  | .next => 0x3000#16
  | .mbclr => 0x4000#16
  | .mbacc => 0x5000#16
  | .mbjudge => 0x6000#16
  | .mbrun _ => 0x7000#16
  | .selftest => 0x8000#16
  | .clrerr => 0x9000#16

/-- The encoding of a command has its row's fixed bits. -/
def Statement (i : Instr) : Prop := encode i &&& rowMask i = rowMatch i

theorem nop : Statement .nop := by unfold Statement; decide
theorem sample (n : BitVec 5) : Statement (.sample n) := by
  unfold Statement; revert n; decide
theorem seed : Statement .seed := by unfold Statement; decide
theorem next : Statement .next := by unfold Statement; decide
theorem mbclr : Statement .mbclr := by unfold Statement; decide
theorem mbacc : Statement .mbacc := by unfold Statement; decide
theorem mbjudge : Statement .mbjudge := by unfold Statement; decide
theorem mbrun (src : Source) : Statement (.mbrun src) := by unfold Statement; cases src <;> decide
theorem selftest : Statement .selftest := by unfold Statement; decide
theorem clrerr : Statement .clrerr := by unfold Statement; decide

end Sys2Proof.Laws.EncodingMatchesTable
end

