-- ==== Sys2Proof/Tests/Slice0.lean ====
section
/-! SUPPORT. The model's own tests: WellFormed's smoke test, every command's word, one-step vectors of
spec/95_test_vectors.md, and for each statement with hypotheses a concrete state that meets them
(named `test_meets_<statement>`). Every expected value is the spec's. -/

namespace Sys2Proof.Tests

open Sys2Proof.Machine

/-! ## States -/

/-- An idle block under the numbers 16, 2, 72. -/
def idle : State := { State.reset with mbbits := 16#16, mbdraws := 2#16, mbbound := 72#16 }

/-- Some configuration of the timer before a SAMPLE. -/
def prior : TimerCfg := Config.timerAtReset

/-- SAMPLE 1 before its last draw, three ones counted so far and a capture of `b` waiting. -/
def lastDraw (three : Bool) (b : Bool) : State :=
  { idle with
    op := .sample, nreq := 1#5, drawj := 4#3, ones := if three then 3#3 else 2#3, snap := prior
    timer := { tcfg := Config.cfgCapture, tflag := true, tlsb := b } }

/-- SAMPLE 1 before its first draw; the flag as given. -/
def firstDraw (flag : Bool) : State :=
  { idle with
    op := .sample, nreq := 1#5, snap := prior
    timer := { tcfg := Config.cfgCapture, tflag := flag, tlsb := true } }

/-- The self-test at Done (vector T6's fields that matter). -/
def atDone : State := { idle with phase := .done, done := true }

/-- SELFTEST at the end of the loop of its stream test, every counted bit a one. -/
def streamEnd : State :=
  { idle with
    op := .selftest, phase := .testingStream, runsrc := .stream, runcnt := 0#16
    mbbits := BitVec.ofNat 16 Config.cfgB.bits, mbdraws := BitVec.ofNat 16 Config.cfgB.draws
    mbbound := BitVec.ofNat 16 Config.cfgB.bound
    nbits := BitVec.ofNat 16 (Config.cfgB.bits * Config.cfgB.draws)
    sum := BitVec.ofNat 16 (Config.cfgB.bits * Config.cfgB.draws)
    dcnt := BitVec.ofNat 16 Config.cfgB.draws }

/-- A field of the next state, none where there is none. -/
def get {α : Type} (o : Host.Outcome State Fault Refusal) (f : State → α) : Option α :=
  match o with
  | .next t => some (f t)
  | .fault _ => none
  | .refused _ => none

/-! ## WellFormed -/

theorem test_sample_count_0_ill_formed : (Instr.sample 0#5).wellFormed = false := by decide
theorem test_sample_count_17_ill_formed : (Instr.sample 17#5).wellFormed = false := by decide
theorem test_sample_count_31_ill_formed : (Instr.sample 31#5).wellFormed = false := by decide
theorem test_sample_count_1_well_formed : (Instr.sample 1#5).wellFormed = true := by decide
theorem test_sample_count_16_well_formed : (Instr.sample 16#5).wellFormed = true := by decide

/-! ## Decoding: words written out from 30_encoding.md R60, R61 (OP in 15:12) -/

theorem test_decode_nop : decode 0b0000000000000000#16 = .ok .nop := by decide
theorem test_decode_sample_1 : decode 0b0001000000000001#16 = .ok (.sample 1#5) := by decide
theorem test_decode_sample_16 : decode 0b0001000000010000#16 = .ok (.sample 16#5) := by decide
theorem test_decode_sample_10 : decode 0b0001000000001010#16 = .ok (.sample 10#5) := by decide
theorem test_decode_seed : decode 0b0010000000000000#16 = .ok .seed := by decide
theorem test_decode_next : decode 0b0011000000000000#16 = .ok .next := by decide
theorem test_decode_mbclr : decode 0b0100000000000000#16 = .ok .mbclr := by decide
theorem test_decode_mbacc : decode 0b0101000000000000#16 = .ok .mbacc := by decide
theorem test_decode_mbjudge : decode 0b0110000000000000#16 = .ok .mbjudge := by decide
theorem test_decode_mbrun_a : decode 0b0111000000000000#16 = .ok (.mbrun .hardware) := by decide
theorem test_decode_mbrun_b : decode 0b0111000000000001#16 = .ok (.mbrun .stream) := by decide
theorem test_decode_selftest : decode 0b1000000000000000#16 = .ok .selftest := by decide
theorem test_decode_clrerr : decode 0b1001000000000000#16 = .ok .clrerr := by decide
/-- E2, E8, E11, E14, E17. -/
theorem test_decode_refuses :
    [0x0001#16, 0x1020#16, 0x3001#16, 0x7002#16, 0xA000#16, 0xFFFF#16].map decode =
      [.error .reservedOperandBits, .error .reservedOperandBits, .error .reservedOperandBits,
       .error .reservedOperandBits, .error .reservedOpcode, .error .reservedOpcode] := by decide
theorem test_encode_sample_16 : encode (.sample 16#5) = 0x1010#16 := by decide
theorem test_encode_mbrun_b : encode (.mbrun .stream) = 0x7001#16 := by decide

/-! ## One step: commands (95_test_vectors.md) -/

/-- E1. -/
theorem test_nop : get (exec .nop idle) id = some idle := rfl
/-- E3: accepted, BUSY = 1. -/
theorem test_sample_accepted : get (exec (.sample 16#5) idle) (fun t => (t.busy, t.nreq)) = some (true, 16#5) := by
  decide
/-- E5: ERR = 3, STAT = 0x0300. -/
theorem test_sample_0_refused : get (exec (.sample 0#5) idle) State.statWord = some 0x0300#16 := by decide
/-- L11. -/
theorem test_seed : get (exec .seed { idle with data := 0xBEEF#16 }) (fun t => (t.lstate, t.data)) =
    some (0xBEEF#16, 0xBEEF#16) := by decide
/-- L8, the wrap-around. -/
theorem test_next_wraps : get (exec .next { idle with lstate := 0xFFFF#16 }) (fun t => (t.lstate, t.data)) =
    some (0x60DE#16, 0x60DE#16) := by decide
/-- L2, the document's golden vector. -/
theorem test_next : get (exec .next { idle with lstate := 0x21C3#16 }) State.lstate = some 0x9532#16 := by decide
/-- M10. -/
theorem test_mbclr : get (exec .mbclr { idle with mbres := .pass, sum := 5#16, nbits := 9#16, dcnt := 3#16 })
    (fun t => (t.sum, t.nbits, t.dcnt, t.mbres)) = some (0#16, 0#16, 0#16, .none) := by decide
/-- M3, a negative sum. -/
theorem test_mbacc : get (exec .mbacc idle) (fun t => (t.sum, t.nbits, t.dcnt)) =
    some (0xFFF0#16, 16#16, 1#16) := by decide
/-- M11, E_OVERRUN: STAT = 0x0400. -/
theorem test_mbacc_overrun : get (exec .mbacc { idle with
    nbits := 32752#16, sum := 0x7FF0#16, dcnt := 2047#16, data := 0xFFFF#16 })
    (fun t => (t.statWord, t.sum)) = some (0x0400#16, 0x7FF0#16) := by decide
/-- M4, equality passes. -/
theorem test_mbjudge_equal : get (exec .mbjudge { idle with sum := 0x0048#16 }) State.mbres = some .pass := by decide
/-- M6, the absolute value of a negative sum. -/
theorem test_mbjudge_negative : get (exec .mbjudge { idle with sum := 0xFFB6#16 }) State.mbres = some .fail := by
  decide
/-- E13. -/
theorem test_mbrun_accepted : get (exec (.mbrun .stream) idle) (fun t => (t.busy, t.runcnt)) =
    some (true, 2#16) := by decide
/-- M17. -/
theorem test_mbrun_refused : get (exec (.mbrun .stream) { idle with mbdraws := 2048#16 })
    (fun t => (t.busy, t.err)) = some (false, .operand) := by decide
/-- E15. -/
theorem test_selftest_accepted : get (exec .selftest idle) (fun t => (t.busy, t.phase)) =
    some (true, .samplingSeed) := by decide
/-- T6's refusal: STAT reads ERR = 5 over DONE and PHASE 4. -/
theorem test_selftest_repeated : get (exec .selftest { atDone with mbres := .pass }) State.statWord =
    some 0x0532#16 := by decide
/-- T7. -/
theorem test_clrerr : get (exec .clrerr { atDone with mbres := .pass, err := .repeated }) State.statWord =
    some 0x0032#16 := by decide
/-- T10: a command while BUSY = 1. -/
theorem test_clrerr_busy : get (exec .clrerr (firstDraw false)) State.err = some .busy := by decide

/-! ## One step: the block's own -/

/-- S6's last draw: three ones of five vote 1, which lands at bit 15. -/
theorem test_vote_three : get (step (lastDraw true false)) (fun t => (t.data, t.busy, t.timer.tcfg)) =
    some (0x8000#16, false, prior) := rfl
/-- S7's last draw: two ones of five vote 0. -/
theorem test_vote_two : get (step (lastDraw false false)) (fun t => (t.data, t.busy)) = some (0#16, false) := by
  decide
/-- 0x8001 at 15 bits contributes -13; 0x00FF at 8 bits contributes -8 (95_test_vectors.md 2.3). -/
theorem test_contrib : (contrib 0x8001#16 15, contrib 0x00FF#16 8, contrib 0x21C3#16 8) = (-13, -8, -4) := by
  decide
/-- E20: MBBITS refuses 17. -/
theorem test_mbbits_17 : get (memWrite 8#4 17#16 idle) (fun t => (t.mbbits, t.err)) = some (16#16, .operand) := by
  decide
/-- The host's word runs as the first command after reset (log 2). -/
theorem test_fetch_next : get (step (State.reset.withFetchWord 16 0x3000)) State.data = some 0x21C3#16 := by decide

/-! ## States that meet the hypotheses of the statements -/

theorem idle_inv (evs : List Event) : MachineInv { idle with pending := evs } := by
  constructor <;> simp [State.running, State.sampling, State.busy, idle, State.reset]

theorem lastDraw_inv (three b : Bool) (evs : List Event) :
    MachineInv { lastDraw three b with pending := evs } := by
  cases three <;> constructor <;>
    simp [State.running, State.sampling, State.busy, lastDraw, idle, State.reset]

theorem firstDraw_inv (flag : Bool) (evs : List Event) :
    MachineInv { firstDraw flag with pending := evs } := by
  constructor <;> simp [State.running, State.sampling, State.busy, firstDraw, idle, State.reset]

theorem streamEnd_inv (evs : List Event) : MachineInv { streamEnd with pending := evs } := by
  obtain ⟨h1, h2⟩ := Config.constrained_bits 8 Config.openBitsB Config.openDrawsB Config.openBoundB (by decide)
  have h3 := Config.constrained_draws 8 Config.openBitsB Config.openDrawsB Config.openBoundB
  have h4 := Config.constrained_bound 8 Config.openBitsB Config.openDrawsB Config.openBoundB
  change 1 ≤ Config.cfgB.bits at h1
  change Config.cfgB.bits ≤ 8 at h2
  change Config.cfgB.bits * Config.cfgB.draws ≤ 32767 at h3
  change Config.cfgB.bound < 65536 at h4
  have h5 : Config.cfgB.draws ≤ Config.cfgB.bits * Config.cfgB.draws := Nat.le_mul_of_pos_left _ h1
  have h6 : Config.cfgB.bits * Config.cfgB.draws ≤ 16 * Config.cfgB.draws := Nat.mul_le_mul_right _ (by omega)
  have e1 : Config.cfgB.bits % 65536 = Config.cfgB.bits := by omega
  have e2 : Config.cfgB.draws % 65536 = Config.cfgB.draws := by omega
  have e3 : Config.cfgB.bound % 65536 = Config.cfgB.bound := by omega
  have e4 : Config.cfgB.bits * Config.cfgB.draws % 65536 = Config.cfgB.bits * Config.cfgB.draws := by omega
  have e5 : (BitVec.ofNat 16 (Config.cfgB.bits * Config.cfgB.draws)).toInt =
      ((Config.cfgB.bits * Config.cfgB.draws : Nat) : Int) := by
    rw [BitVec.toInt_eq_toNat_of_lt (by rw [BitVec.toNat_ofNat]; omega), BitVec.toNat_ofNat, e4]
  constructor
  case sumBound => simp only [streamEnd, e5, BitVec.toNat_ofNat]; omega
  case sumParity => simp only [streamEnd, e5, BitVec.toNat_ofNat]; omega
  case drawCount => simp only [streamEnd, BitVec.toNat_ofNat]; omega
  case widthLegal => simp only [streamEnd, BitVec.toNat_ofNat]; omega
  case testLength => simp only [streamEnd, BitVec.toNat_ofNat]; omega
  case runCounts =>
    intro _
    simp only [streamEnd, BitVec.toNat_ofNat, e1, e2, e4]
    exact ⟨trivial, by simp, h3, rfl⟩
  all_goals simp [State.running, State.sampling, State.busy, streamEnd, idle, State.reset, e1, e2, e3]

theorem test_meets_EveryWordClassified :
    idle.busy = false ∧ 10 ≤ (0xA000#16).toNat / 4096 ∧ 10 ≤ (0xFFFF#16).toNat / 4096 ∧
    ((0x9001#16).toNat / 4096 ∈ [0, 2, 3, 4, 5, 6, 8, 9] ∧ (0x9001#16).toNat % 4096 ≠ 0) ∧
    ((0x1020#16).toNat / 4096 = 1 ∧ (0x1020#16).toNat % 4096 / 32 ≠ 0) ∧
    ((0x7002#16).toNat / 4096 = 7 ∧ (0x7002#16).toNat % 4096 / 2 ≠ 0) ∧
    (0x1000#16).toNat = 0x1000 ∧ (0x1011 ≤ (0x101F#16).toNat ∧ (0x101F#16).toNat ≤ 0x101F) := by decide

theorem test_meets_StepRunsDecodedCommand :
    ({ idle with pending := [.write 0#4 0x3000#16] } : State).pending = .write 0#4 0x3000#16 :: [] ∧
    decode 0x3000#16 = .ok .next ∧ decodeTableWord 16 0x101F = some (.sample 31#5) ∧
    decodeTableWord 8 0x9000 = some .nop := by decide

theorem test_meets_HousekeepingCommands :
    idle.busy = false ∧ (firstDraw false).busy = true ∧
    ((0x0001#16).toNat / 4096 = 0 ∧ (0x0001#16).toNat % 4096 ≠ 0) ∧
    ((0x9FFF#16).toNat / 4096 = 9 ∧ (0x9FFF#16).toNat % 4096 ≠ 0) := by decide

theorem test_meets_StreamCommands :
    idle.busy = false ∧ (firstDraw false).busy = true ∧
    ((0x2001#16).toNat / 4096 = 2 ∧ (0x2001#16).toNat % 4096 ≠ 0) ∧
    ((0x3FFF#16).toNat / 4096 = 3 ∧ (0x3FFF#16).toNat % 4096 ≠ 0) := by decide

theorem test_meets_TesterCommands :
    idle.busy = false ∧ (firstDraw false).busy = true ∧
    (let s : State := { idle with nbits := 32751#16 }
     s.busy = false ∧ s.nbits.toNat + s.mbbits.toNat ≤ 32767) ∧
    (let s : State := { idle with nbits := 32752#16 }
     s.busy = false ∧ 32767 < s.nbits.toNat + s.mbbits.toNat) ∧
    (let s : State := { idle with sum := 73#16 }
     s.busy = false ∧ s.mbbound.toNat < s.sum.toInt.natAbs) ∧
    (let s : State := { idle with sum := 72#16 }
     s.busy = false ∧ s.sum.toInt.natAbs ≤ s.mbbound.toNat) ∧
    ((0x4001#16).toNat / 4096 = 4 ∧ (0x4001#16).toNat % 4096 ≠ 0) ∧
    ((0x5800#16).toNat / 4096 = 5 ∧ (0x5800#16).toNat % 4096 ≠ 0) ∧
    ((0x6FFF#16).toNat / 4096 = 6 ∧ (0x6FFF#16).toNat % 4096 ≠ 0) := by decide

theorem test_meets_SampleAccepted :
    idle.busy = false ∧ (1 ≤ (1#5).toNat ∧ (1#5).toNat ≤ 16) ∧ (1 ≤ (16#5).toNat ∧ (16#5).toNat ≤ 16) ∧
    (0#5).toNat = 0 ∧ 16 < (17#5).toNat := by decide

theorem test_meets_MbrunAccepted :
    (let s : State := { idle with mbbits := 1#16, mbdraws := 32767#16 }
     s.busy = false ∧ s.mbbits.toNat * s.mbdraws.toNat ≤ 32767) ∧
    (let s : State := { idle with mbdraws := 2048#16 }
     s.busy = false ∧ 32767 < s.mbbits.toNat * s.mbdraws.toNat) := by decide

theorem test_meets_SelftestAcceptedOnce :
    (idle.busy = false ∧ idle.phase = .idle) ∧ (atDone.busy = false ∧ atDone.phase ≠ .idle) := by decide

theorem test_meets_BusyRefusesEveryCommand :
    (firstDraw false).busy = true ∧ streamEnd.busy = true := by decide

theorem test_meets_OnlyBlockingCommandsSetBusy :
    (∃ t, exec .next idle = .next t) ∧ ∃ t, exec (.sample 1#5) idle = .next t := ⟨⟨_, rfl⟩, _, rfl⟩

theorem test_meets_ErrKeepsFirstRefusal :
    (let s : State := { idle with err := .illegal, pending := [.write 0#4 0x1000#16] }
     (∃ t, step s = .next t) ∧ s.err ≠ .none) ∧
    (let s : State := { idle with err := .illegal, pending := [.write 0#4 0x9000#16] }
     (∃ t, step s = .next t) ∧ s.err ≠ .none) ∧
    (let s : State := { idle with pending := [.write 8#4 0#16] }
     s.err = .none ∧ ∃ t, step s = .next t ∧ t.err ≠ .none) := by
  refine ⟨⟨⟨_, rfl⟩, by decide⟩, ⟨⟨_, rfl⟩, by decide⟩, rfl, _, rfl, by decide⟩

theorem test_meets_ErrKeepsFirstRefusal_writes :
    expectedRefusal { idle with err := .illegal } 8#4 17#16 ≠ .none ∧ idle.busy = false ∧
    ∃ t, step (idle.withPending (.reset :: [])) = .next t :=
  ⟨by decide, rfl, _, rfl⟩

theorem test_meets_StatFields : idle.busy = false := rfl

theorem test_meets_RefusalPriority : idle.err = .none ∧ (firstDraw false).err = .none := by decide

theorem test_meets_HostWriteActs :
    (firstDraw false).busy = true ∧ idle.busy = false ∧ (0#4).toNat = 0 ∧ decode 0x4000#16 = .ok .mbclr ∧
    decode 0xA000#16 = .error .reservedOpcode ∧ (8#4).toNat ≠ 0 ∧ (15#4).toNat ≠ 0 := by decide

theorem test_meets_ReservedIndices :
    13 ≤ (13#4).toNat ∧ 13 ≤ (15#4).toNat ∧ idle.busy = false ∧ (firstDraw true).busy = true := by decide

theorem test_meets_StepKeepsInvariant :
    (∃ t, MachineInv { idle with pending := [.write 0#4 0x7000#16] } ∧
      step { idle with pending := [.write 0#4 0x7000#16] } = .next t) ∧
    (∃ t, MachineInv { lastDraw true true with pending := [] } ∧
      step { lastDraw true true with pending := [] } = .next t) ∧
    ∃ t, MachineInv { streamEnd with pending := [] } ∧ step { streamEnd with pending := [] } = .next t :=
  ⟨⟨_, idle_inv _, rfl⟩, ⟨_, lastDraw_inv _ _ _, rfl⟩, _, streamEnd_inv _, rfl⟩

theorem test_meets_ReachableStateFacts :
    (∃ t, runs 1 { State.reset with
        timer := idle.timer, snap := Config.cfgCapture, pending := [.write 0#4 0x1001#16], rdata := 1#16
        freeCount := 2 } = .next t ∧
      t.done = false ∧ t.sampling = true) := ⟨_, rfl, rfl, rfl⟩

theorem test_meets_EachDrawUsesOneCapture :
    (MachineInv (firstDraw false) ∧ (firstDraw false).sampling = true ∧
      (firstDraw false).timer.tflag = false) ∧
    (MachineInv (firstDraw true) ∧ (firstDraw true).sampling = true ∧ (firstDraw true).timer.tflag = true ∧
      5 * (firstDraw true).biti.toNat + (firstDraw true).drawj.toNat + 1 <
        5 * (firstDraw true).nreq.toNat) ∧
    (MachineInv (lastDraw true true) ∧ (lastDraw true true).sampling = true ∧
      (lastDraw true true).timer.tflag = true ∧
      5 * (lastDraw true true).biti.toNat + (lastDraw true true).drawj.toNat + 1 =
        5 * (lastDraw true true).nreq.toNat) :=
  ⟨⟨firstDraw_inv false [], by decide⟩, ⟨firstDraw_inv true [], by decide⟩, lastDraw_inv true true [], by decide⟩

theorem test_meets_SampleDeliversMajorities :
    idle.busy = false ∧
    (1 ≤ (1#5).toNat ∧ (1#5).toNat ≤ 16 ∧ (List.replicate 5 true).length = 5 * (1#5).toNat) ∧
    (1 ≤ (16#5).toNat ∧ (16#5).toNat ≤ 16 ∧ (List.replicate 80 false).length = 5 * (16#5).toNat) := by decide

theorem test_meets_TimerOwnedDuringSample :
    (let s : State := { idle with pending := [.write 0#4 0x1001#16] }
     MachineInv s ∧ ∃ t, step s = .next t ∧ s.sampling = false ∧ t.sampling = true) ∧
    (let s : State := { firstDraw true with pending := [] }
     MachineInv s ∧ ∃ t, step s = .next t ∧ s.sampling = true ∧ t.sampling = true) ∧
    (let s : State := { lastDraw true true with pending := [] }
     MachineInv s ∧ ∃ t, step s = .next t ∧ s.sampling = true ∧ t.sampling = false ∧ ¬ s.nextIs .reset) :=
  ⟨⟨idle_inv _, _, rfl, rfl, rfl⟩, ⟨firstDraw_inv _ _, _, rfl, rfl, rfl⟩,
    lastDraw_inv _ _ _, _, rfl, rfl, rfl, by simp [State.nextIs]⟩

theorem test_meets_OtherConsumerKeptOut :
    (firstDraw true).sampling = true ∧ idle.sampling = false := by decide

theorem test_meets_PriorConfigurationDoesNotMatter :
    (∃ t, runs 2 { idle with pending := [.write 0#4 0x1001#16] } = .next t) ∧
    (∃ r, runs 2 { idle with pending := [.write 0#4 0x1001#16, .otherConsumer idle.timer] } = .refused r) :=
  ⟨⟨_, rfl⟩, _, rfl⟩

theorem test_meets_HangLastsWithoutCapture :
    (let s : State := { firstDraw false with pending := [.write 0#4 0#16, .read 3#4, .block] }
     s.hung = true ∧ s.pending.all Event.leavesHang = true) := by decide

theorem test_meets_DataWriters :
    (let s : State := { firstDraw true with pending := [] }
     ∃ t, step s = .next t ∧ s.sampling = true ∧ t.sampling = true) ∧
    (∃ t, step { idle with pending := [.write 3#4 0x1234#16] } = .next t) ∧
    (let s : State := { lastDraw true true with pending := [] }
     ∃ t, MachineInv s ∧ step s = .next t ∧ s.blockTurn ∧ s.sampling = true ∧ t.sampling = false) :=
  ⟨⟨_, rfl, rfl, rfl⟩, ⟨_, rfl⟩, _, lastDraw_inv _ _ _, rfl, .inl rfl, rfl, rfl⟩

theorem test_meets_LcgFullPeriod : 0 < 1 ∧ 1 < 65536 ∧ 0 < 65535 ∧ 65535 < 65536 := by decide

theorem test_meets_LcgBitPeriods : 0 < 16 ∧ 15 < 16 ∧ 0 < 1 ∧ 1 < 2 ^ (0 + 1) := by decide

theorem test_meets_LstateWriters :
    (∃ t, step { idle with pending := [.write 0#4 0x2000#16] } = .next t) ∧
    ∃ t, step { idle with op := .mbrun, runsrc := .stream, runcnt := 1#16 } = .next t := ⟨⟨_, rfl⟩, _, rfl⟩

theorem test_meets_ContributionLaws :
    (1 ≤ 1 ∧ 1 ≤ 16) ∧ (1 ≤ 16 ∧ 16 ≤ 16) ∧ 0xFF00#16 >>> (16 - 8) = 0xFFFF#16 >>> (16 - 8) := by decide

theorem test_meets_HostFedTestSum :
    idle.busy = false ∧
    (∀ p ∈ [((1#16 : Word), (0x8000#16 : Word)), (16#16, 0xFFFF#16)], 1 ≤ p.1.toNat ∧ p.1.toNat ≤ 16) ∧
    ([((1#16 : Word), (0x8000#16 : Word)), (16#16, 0xFFFF#16)].map fun p => p.1.toNat).sum ≤ 32767 ∧
    (∀ p ∈ List.replicate 32767 ((1#16 : Word), (0#16 : Word)), 1 ≤ p.1.toNat ∧ p.1.toNat ≤ 16) ∧
    ((List.replicate 32767 ((1#16 : Word), (0#16 : Word))).map fun p => p.1.toNat).sum ≤ 32767 := by
  refine ⟨rfl, by simp, by simp, fun p h => ?_, ?_⟩
  · rw [List.eq_of_mem_replicate h]; decide
  · rw [List.map_replicate, List.sum_replicate]; simp

theorem test_meets_MbrunStreamCompletes :
    (MachineInv idle ∧ idle.busy = false ∧ idle.mbbits.toNat * idle.mbdraws.toNat ≤ 32767) ∧
    (let s : State := { idle with mbdraws := 0#16 }
     MachineInv s ∧ s.busy = false ∧ s.mbbits.toNat * s.mbdraws.toNat ≤ 32767) :=
  ⟨⟨idle_inv [], by decide⟩,
    by constructor <;> simp [State.running, State.sampling, State.busy, idle, State.reset], by decide⟩

theorem test_meets_MbrunHardwareCompletes :
    MachineInv idle ∧ idle.busy = false ∧ idle.mbbits.toNat * idle.mbdraws.toNat ≤ 32767 ∧
    (List.replicate 2 (List.replicate 80 true)).length = idle.mbdraws.toNat ∧
    (∀ d ∈ List.replicate 2 (List.replicate 80 true), d.length = 80) :=
  ⟨idle_inv [], by decide⟩

theorem test_meets_SelftestCompletes :
    idle.busy = false ∧ idle.phase = .idle ∧ (List.replicate 80 true).length = 80 ∧
    (List.replicate Config.cfgA.draws (List.replicate 80 true)).length = Config.cfgA.draws ∧
    (∀ d ∈ List.replicate Config.cfgA.draws (List.replicate 80 true), d.length = 80) :=
  ⟨rfl, rfl, by simp, by simp, fun d h => by simp [List.eq_of_mem_replicate h]⟩

theorem test_meets_PhaseMovesInOrder :
    (∃ t, step { idle with pending := [.write 0#4 0x8000#16] } = .next t ∧
      ¬ ({ idle with pending := [.write 0#4 0x8000#16] } : State).nextIs .reset ∧ t.phase ≠ idle.phase) ∧
    (∃ t, step streamEnd = .next t ∧ ¬ streamEnd.nextIs .reset ∧ t.phase = .done) :=
  ⟨⟨_, rfl, by simp [State.nextIs], by decide⟩, _, rfl, by simp [State.nextIs, streamEnd, idle, State.reset], rfl⟩

theorem test_meets_StatusPublishedOnceAtDone :
    (MachineInv streamEnd ∧ ∃ t, step streamEnd = .next t ∧ ¬ streamEnd.nextIs .reset ∧ t.done = true) ∧
    (MachineInv idle ∧ ∃ t, step idle = .next t ∧ ¬ idle.nextIs .reset) :=
  ⟨⟨streamEnd_inv [], _, rfl, by simp [State.nextIs, streamEnd, idle, State.reset], rfl⟩,
    idle_inv [], _, rfl, by simp [State.nextIs, idle, State.reset]⟩

theorem test_meets_SelftestRecords :
    (∃ t, step streamEnd = .next t ∧ ¬ streamEnd.nextIs .reset) ∧
    (let s : State := { streamEnd with phase := .testingHardwareSource }
     ∃ t, step s = .next t ∧ ¬ s.nextIs .reset) :=
  ⟨⟨_, rfl, by simp [State.nextIs, streamEnd, idle, State.reset]⟩,
    _, rfl, by simp [State.nextIs, streamEnd, idle, State.reset]⟩

theorem test_meets_OtherCommandsLeaveSelftestResult :
    (let s : State := { atDone with pending := [.write 0#4 0x7000#16] }
     ∃ t, step s = .next t ∧ ¬ s.nextIs .reset ∧ s.op ≠ .selftest ∧ ¬ s.nextIs (.write 0#4 0x8000#16)) :=
  ⟨_, rfl, by simp [State.nextIs], by decide, by simp [State.nextIs]⟩

end Sys2Proof.Tests
end

section
/-! The numbers behind the tester: what a word contributes, what the configurations hold, and what an accumulation
does to SUM, NBITS and DCNT when no counter wraps. -/

namespace Sys2Proof.Machine

variable {s : State}

/-! ## Contributions (42_monobit_tester.md R110) -/

theorem contrib_bounds (w : Word) (b : Nat) : -(b : Int) ≤ contrib w b ∧ contrib w b ≤ b := by
  induction b with
  | zero => simp [contrib]
  | succ k ih => rw [contrib]; split <;> omega

theorem contrib_emod_two (w : Word) (b : Nat) : contrib w b % 2 = (b : Int) % 2 := by
  induction b with
  | zero => rfl
  | succ k ih => rw [contrib]; split <;> omega

end Sys2Proof.Machine

/-! ## The configurations (00_scope.md R3) -/

namespace Sys2Proof

/-- What R3 requires of both configurations, with the wider of the two limits on BITS. -/
structure TestCfg.Legal (c : TestCfg) : Prop where
  bits : 1 ≤ c.bits ∧ c.bits ≤ 16
  length : c.bits * c.draws ≤ 32767
  bound : c.bound < 65536

namespace Config

theorem constrained_legal {top : Nat} (h : 0 < top ∧ top ≤ 16) (b d m : Nat) :
    (constrained top b d m).Legal where
  bits := (constrained_bits top b d m h.1).imp_right (le_trans · h.2)
  length := constrained_draws top b d m
  bound := constrained_bound top b d m

theorem cfgA_legal : cfgA.Legal := constrained_legal (by decide) ..

theorem cfgB_legal : cfgB.Legal := constrained_legal (by decide) ..

end Config

namespace TestCfg.Legal

variable {c : TestCfg}

theorem toNat_bits (h : c.Legal) : (BitVec.ofNat 16 c.bits).toNat = c.bits :=
  Nat.mod_eq_of_lt (by have := h.bits; omega)

theorem toNat_draws (h : c.Legal) : (BitVec.ofNat 16 c.draws).toNat = c.draws := by
  have hle : c.draws ≤ c.bits * c.draws := Nat.le_mul_of_pos_left _ h.bits.1
  have hlen := h.length
  exact Nat.mod_eq_of_lt (by omega)

theorem toNat_bound (h : c.Legal) : (BitVec.ofNat 16 c.bound).toNat = c.bound :=
  Nat.mod_eq_of_lt h.bound

end TestCfg.Legal

end Sys2Proof

namespace Sys2Proof.Machine

variable {s : State}

/-! ## Accumulation without wrapping (42_monobit_tester.md R112) -/

theorem State.accumulate_nbits_toNat (hfit : s.nbits.toNat + s.mbbits.toNat ≤ 32767) :
    s.accumulate.nbits.toNat = s.nbits.toNat + s.mbbits.toNat :=
  BitVec.toNat_add_of_lt (by omega)

theorem MachineInv.accumulate_dcnt_toNat (h : MachineInv s) :
    s.accumulate.dcnt.toNat = s.dcnt.toNat + 1 :=
  BitVec.toNat_add_of_lt (y := 1#16) (by have := h.drawCount; have := h.testLength; simp; omega)

/-- The signed sum is exact: its absolute value stays below the count of bits. -/
theorem MachineInv.accumulate_sum_toInt (h : MachineInv s)
    (hfit : s.nbits.toNat + s.mbbits.toNat ≤ 32767) :
    s.accumulate.sum.toInt = s.sum.toInt + contrib s.data s.mbbits.toNat := by
  have hc := contrib_bounds s.data s.mbbits.toNat
  have hb := h.sumBound
  exact BitVec.toInt_ofInt_eq_self (by decide) (by omega) (by omega)

end Sys2Proof.Machine
end

section
/-! Every step keeps `MachineInv`: one lemma per operation of the block, each naming only the clauses the operation
touches, then the steps and the runs made of them. -/

namespace Sys2Proof.Machine

variable {s t : State}

/-! ## What the invariant says of an idle block and of one between two SAMPLEs -/

theorem State.sampling_eq_false :
    s.sampling = false ↔ (s.op = .idle ∨ s.nreq.toNat ≤ s.biti.toNat) := by
  simp [State.sampling, State.busy, imp_iff_not_or]

namespace MachineInv

theorem bits_done (h : MachineInv s) (hs : s.sampling = false) : s.biti.toNat = s.nreq.toNat := by
  have hle := h.bitsVoted
  obtain hop | hge := State.sampling_eq_false.mp hs
  · have := h.idleHasNone hop; omega
  · omega

theorem phase_of_idle (h : MachineInv s) (hop : s.op = .idle) : s.phase = .idle ∨ s.phase = .done := by
  have hm := h.selftestPhases
  cases hp : s.phase <;> simp [hop, hp] at hm ⊢

theorem not_running_of_idle (h : MachineInv s) (hop : s.op = .idle) : ¬ s.running := by
  obtain hp | hp := h.phase_of_idle hop <;> simp [State.running, hop, hp]

theorem op_of_running (h : MachineInv s) (hr : s.running) : s.op = .mbrun ∨ s.op = .selftest :=
  hr.imp_right fun hp => h.selftestPhases.mpr (.inr hp)

theorem op_ne_sample_of_running (h : MachineInv s) (hr : s.running) : s.op ≠ .sample := by
  obtain hop | hop := h.op_of_running hr <;> simp [hop]

theorem phase_ne_seed_of_running (h : MachineInv s) (hr : s.running) : s.phase ≠ .samplingSeed := by
  intro hp
  have hop := h.selftestPhases.mpr (.inl hp)
  simp [State.running, hop, hp] at hr

/-- A busy block that is not inside a SAMPLE is in the loop of MBRUN. -/
theorem running_of_busy (h : MachineInv s) (hop : s.op ≠ .idle) (hs : s.sampling = false) :
    s.running := by
  have hb := h.bits_done hs
  cases ho : s.op with
  | idle => exact absurd ho hop
  | sample => have := h.sampleHasBits ho; omega
  | mbrun => exact .inl ho
  | selftest =>
    obtain hp | hp := h.selftestPhases.mp ho
    · have := h.seedHasBits hp; omega
    · exact .inr hp

end MachineInv

/-! ## Reset and the environment -/

theorem MachineInv.reset : MachineInv State.reset where
  sampleHasBits := nofun
  idleHasNone _ := le_rfl
  bitsVoted := by decide
  drawsCounted := by decide
  selftestPhases := by decide
  seedHasBits := nofun
  samplingServesRun := nofun
  timerOwned := nofun
  doneIsPhase := by decide
  statusBefore _ := rfl
  statusAfter := nofun
  recordA _ := ⟨rfl, rfl⟩
  recordB _ := ⟨rfl, rfl⟩
  testLength := by decide
  sumBound := by decide
  sumParity := by decide
  drawCount := by decide
  widthLegal := by
    rw [State.reset, Config.cfgA_legal.toNat_bits]
    exact Config.cfgA_legal.bits
  runCounts := by simp [State.running, State.reset]
  hardwareTestArgs := nofun
  streamTestArgs := nofun

namespace MachineInv

/-- Outside a SAMPLE nothing is known of the timer, of SNAP or of the model's own fields. -/
theorem setEnvironment (h : MachineInv s) (hs : s.sampling = false) (tm : Timer) (c : TimerCfg)
    (evs : List Event) (r : Word) (n : Nat) :
    MachineInv { s with timer := tm, snap := c, pending := evs, rdata := r, freeCount := n } :=
  { h with timerOwned := fun ht => absurd ht (Bool.eq_false_iff.mp hs) }

theorem resetBlock (s : State) : MachineInv s.resetBlock :=
  MachineInv.reset.setEnvironment rfl s.timer _ s.pending s.rdata s.freeCount

/-! ## Operations no clause reads -/

theorem withPending (h : MachineInv s) (p : List Event) : MachineInv (s.withPending p) := { h with }

theorem raise (h : MachineInv s) (e : ErrCode) : MachineInv (s.raise e) := { h with }

theorem clearErr (h : MachineInv s) : MachineInv s.clearErr := { h with }

theorem loadSeed (h : MachineInv s) : MachineInv s.loadSeed := { h with }

theorem advanceStream (h : MachineInv s) : MachineInv s.advanceStream := { h with }

theorem memRead (h : MachineInv s) (i : RegIndex) : MachineInv (s.memRead i) := by
  rw [State.memRead_eq]; exact { h with }

/-! ## The timer -/

theorem capture (h : MachineInv s) (b : Bool) : MachineInv (s.capture b) := { h with }

/-- Another consumer has the timer only while no SAMPLE owns it (70_reset_and_hazards.md R174). -/
theorem setTimer (h : MachineInv s) (hs : s.sampling = false) (m : Timer) :
    MachineInv { s with timer := m } :=
  h.setEnvironment hs m s.snap s.pending s.rdata s.freeCount

/-! ## Host writes of an idle block -/

/-- The parameters of a test are free, but for a legal width, while no run uses them. -/
theorem setTest (h : MachineInv s) (hn : ¬ s.running) {b : Word} (hb : 1 ≤ b.toNat ∧ b.toNat ≤ 16)
    (d m : Word) : MachineInv { s with mbbits := b, mbdraws := d, mbbound := m } :=
  { h with
    widthLegal := hb
    runCounts := fun hr => absurd hr hn
    hardwareTestArgs := fun hp => absurd (.inr (.inl hp)) hn
    streamTestArgs := fun hp => absurd (.inr (.inr hp)) hn }

theorem writeReg (h : MachineInv s) (hop : s.op = .idle) (r : Reg) (v : Word) :
    MachineInv (s.writeReg r v) := by
  have hn := h.not_running_of_idle hop
  obtain he | ⟨-, he⟩ | ⟨-, hv, he⟩ | ⟨-, -, he⟩ | ⟨-, he⟩ | ⟨-, he⟩ := s.writeReg_cases r v <;> rw [he]
  · exact h
  · exact { h with }
  · exact h.setTest hn (mbbitsWriteOk_eq_true.mp hv) s.mbdraws s.mbbound
  · exact h.raise _
  · exact h.setTest hn h.widthLegal v s.mbbound
  · exact h.setTest hn h.widthLegal s.mbdraws v

/-! ## The tester's commands -/

theorem clearTest (h : MachineInv s) (hn : ¬ s.running) : MachineInv s.clearTest :=
  { h with
    testLength := by simp
    sumBound := by simp
    sumParity := by simp
    drawCount := by simp
    runCounts := fun hr => absurd hr hn }

theorem judge (h : MachineInv s) (hn : ¬ s.running) : MachineInv s.judge :=
  { h with runCounts := fun hr => absurd hr hn }

/-- An accumulation that fits, with RUNCNT counted down when a run asked for it: MBACC and a turn of MBRUN. -/
theorem accumulate_setRuncnt (h : MachineInv s) (hfit : s.nbits.toNat + s.mbbits.toNat ≤ 32767) {c : Word}
    (hc : s.running → s.sampling = false ∧ s.runcnt.toNat = c.toNat + 1) :
    MachineInv { s.accumulate with runcnt := c } := by
  have hn : s.accumulate.nbits.toNat = _ := State.accumulate_nbits_toNat hfit
  have hd : s.accumulate.dcnt.toNat = _ := h.accumulate_dcnt_toNat
  have hsum : s.accumulate.sum.toInt = _ := h.accumulate_sum_toInt hfit
  have hcon := contrib_bounds s.data s.mbbits.toNat
  have hmod := contrib_emod_two s.data s.mbbits.toNat
  have hwidth := h.widthLegal
  have hbound : s.accumulate.sum.toInt.natAbs ≤ s.accumulate.nbits.toNat := by
    have := h.sumBound; omega
  have hparity : (s.accumulate.sum.toInt - (s.accumulate.nbits.toNat : Int)) % 2 = 0 := by
    have := h.sumParity; omega
  have hdraws : s.accumulate.dcnt.toNat ≤ s.accumulate.nbits.toNat ∧
      s.accumulate.nbits.toNat ≤ 16 * s.accumulate.dcnt.toNat := by
    have := h.drawCount; omega
  have hrun (hr : s.running) : s.accumulate.nbits.toNat = s.mbbits.toNat * s.accumulate.dcnt.toNat ∧
      s.accumulate.dcnt.toNat + c.toNat = s.mbdraws.toNat ∧
      s.mbbits.toNat * s.mbdraws.toNat ≤ 32767 ∧ s.accumulate.mbres = .none := by
    obtain ⟨hbits, hleft, hlen, -⟩ := h.runCounts hr
    obtain ⟨-, hdown⟩ := hc hr
    exact ⟨by rw [hn, hd, hbits, Nat.mul_succ], by omega, hlen, rfl⟩
  exact { h with
    samplingServesRun := fun hs hr => absurd hs (Bool.eq_false_iff.mp (hc hr).1)
    testLength := hn.trans_le hfit
    sumBound := hbound
    sumParity := hparity
    drawCount := hdraws
    runCounts := hrun }

theorem accumulate (h : MachineInv s) (hn : ¬ s.running)
    (hfit : s.nbits.toNat + s.mbbits.toNat ≤ 32767) : MachineInv s.accumulate :=
  h.accumulate_setRuncnt hfit (c := s.runcnt) fun hr => absurd hr hn

/-- A draw of a run still fits: R114's check bounds the whole run. -/
theorem draw_fits (h : MachineInv s) (hr : s.running) (hc : s.runcnt.toNat ≠ 0) :
    s.nbits.toNat + s.mbbits.toNat ≤ 32767 := by
  obtain ⟨hbits, hdraws, hlen, -⟩ := h.runCounts hr
  calc s.nbits.toNat + s.mbbits.toNat
      = s.mbbits.toNat * (s.dcnt.toNat + 1) := by rw [hbits, Nat.mul_succ]
    _ ≤ s.mbbits.toNat * s.mbdraws.toNat := Nat.mul_le_mul_left _ (by omega)
    _ ≤ 32767 := hlen

theorem endDraw (h : MachineInv s) (hr : s.running) (hs : s.sampling = false) (hc : s.runcnt.toNat ≠ 0) :
    MachineInv s.endDraw :=
  h.accumulate_setRuncnt (h.draw_fits hr hc) fun _ => ⟨hs, by bv_omega⟩

theorem acceptMbrun (h : MachineInv s) (hop : s.op = .idle)
    (hfit : s.mbbits.toNat * s.mbdraws.toNat ≤ 32767) (src : Source) : MachineInv (s.acceptMbrun src) := by
  have hn := h.not_running_of_idle hop
  have hs : (s.acceptMbrun src).sampling = false := State.sampling_eq_false.mpr (.inr (h.idleHasNone hop))
  have hmid := mt h.selftestPhases.mpr (by simp [hop])
  exact { h.clearTest hn with
    sampleHasBits := nofun
    idleHasNone := nofun
    selftestPhases := iff_of_false nofun hmid
    samplingServesRun := fun ht => absurd ht (Bool.eq_false_iff.mp hs)
    timerOwned := fun ht => absurd ht (Bool.eq_false_iff.mp hs)
    runCounts := fun _ => by simpa using hfit
    hardwareTestArgs := fun ht => absurd (.inr (.inl ht)) hn
    streamTestArgs := fun ht => absurd (.inr (.inr ht)) hn }

end MachineInv

/-! ## The beginning of a SAMPLE (40_noise_sampler.md R88) -/

/-- As one record update: nested updates are unfolded anew for every clause of the invariant. -/
theorem State.beginSample_eq (s : State) (n : BitVec 5) : s.beginSample n =
    { s with
      snap := s.timer.tcfg, timer := { s.timer with tcfg := Config.cfgCapture }
      sr := 0#16, biti := 0#5, nreq := n, ones := 0#3, drawj := 0#3 } := by
  cases s; rfl

namespace MachineInv

theorem acceptSample (h : MachineInv s) (hop : s.op = .idle) {n : BitVec 5}
    (hlegal : 1 ≤ n.toNat ∧ n.toNat ≤ 16) : MachineInv (s.acceptSample n) := by
  have hmid := mt h.selftestPhases.mpr (by simp [hop])
  have hn : ¬ (s.acceptSample n).running := by
    obtain hp | hp := h.phase_of_idle hop <;> simp [State.running, hp]
  rw [State.acceptSample, State.beginSample_eq] at hn ⊢
  exact { h with
    sampleHasBits := fun _ => hlegal.1
    idleHasNone := nofun
    bitsVoted := ⟨Nat.zero_le _, hlegal.2⟩
    drawsCounted := by simp
    selftestPhases := iff_of_false nofun hmid
    seedHasBits := fun _ => hlegal.1
    samplingServesRun := fun _ hr => absurd hr hn
    timerOwned := fun _ => rfl
    runCounts := fun hr => absurd hr hn }

theorem acceptSelftest (h : MachineInv s) (hphase : s.phase = .idle) :
    MachineInv s.acceptSelftest := by
  have hn : ¬ s.acceptSelftest.running := by simp [State.running]
  rw [State.acceptSelftest, State.beginSample_eq] at hn ⊢
  have hdone : s.done = false := by simpa [hphase] using h.doneIsPhase
  exact { h with
    sampleHasBits := nofun
    idleHasNone := nofun
    bitsVoted := by simp
    drawsCounted := by simp
    selftestPhases := by simp
    seedHasBits := fun _ => by simp
    samplingServesRun := fun _ hr => absurd hr hn
    timerOwned := fun _ => rfl
    doneIsPhase := by simp [hdone]
    recordA := fun _ => h.recordA (.inl hphase)
    recordB := fun _ => h.recordB (by simp [hphase])
    runCounts := fun hr => absurd hr hn
    hardwareTestArgs := nofun
    streamTestArgs := nofun }

/-- A turn of MBRUN over source A begins a SAMPLE (42_monobit_tester.md R114). -/
theorem beginSample (h : MachineInv s) (hr : s.running) (hc : s.runcnt.toNat ≠ 0)
    (hsrc : s.runsrc = .hardware) : MachineInv (s.beginSample 16#5) := by
  rw [State.beginSample_eq]
  exact { h with
    sampleHasBits := fun _ => by simp
    idleHasNone := fun hop => absurd hr (h.not_running_of_idle hop)
    bitsVoted := by simp
    drawsCounted := by simp
    seedHasBits := fun _ => by simp
    samplingServesRun := fun _ _ => ⟨hsrc, Nat.pos_of_ne_zero hc⟩
    timerOwned := fun _ => rfl }

end MachineInv

/-! ## A draw (40_noise_sampler.md R88, R89) -/

/-- The last vote of a SAMPLE, before what follows it in its command. -/
def State.lastVote (s : State) : State := s.countDraw.shiftBit.endSample

theorem State.shiftBit_countDraw_eq (s : State) : s.countDraw.shiftBit =
    { s with
      timer := { s.timer with tflag := false }, sr := shiftVote s.sr s.countDraw.ones.toNat
      biti := s.biti + 1#5, ones := 0#3, drawj := 0#3 } := by
  cases s; rfl

@[simp] theorem State.lastVote_op (s : State) : s.lastVote.op = s.op := by simp [State.lastVote]

@[simp] theorem State.lastVote_phase (s : State) : s.lastVote.phase = s.phase := by simp [State.lastVote]

@[simp] theorem State.lastVote_nreq (s : State) : s.lastVote.nreq = s.nreq := by simp [State.lastVote]

@[simp] theorem State.lastVote_runcnt (s : State) : s.lastVote.runcnt = s.runcnt := by simp [State.lastVote]

/-- What follows a SAMPLE, by the command it ran for. -/
theorem State.afterSample_cases (s : State) :
    (s.op = .idle ∧ s.afterSample = s) ∨
    (s.op = .sample ∧ s.afterSample = { s with op := .idle }) ∨
    (s.op = .selftest ∧ s.phase = .samplingSeed ∧ s.afterSample = s.enterHardwareTest) ∨
    ((s.op = .mbrun ∨ s.op = .selftest ∧ s.phase ≠ .samplingSeed) ∧ s.afterSample = s.endDraw) := by
  unfold State.afterSample
  cases hop : s.op <;> by_cases hp : s.phase = .samplingSeed <;> simp [hp]

theorem State.lastVote_eq (s : State) : s.lastVote =
    { s with
      data := shiftVote s.sr s.countDraw.ones.toNat, sr := shiftVote s.sr s.countDraw.ones.toNat
      biti := s.biti + 1#5, ones := 0#3, drawj := 0#3
      timer := { tcfg := s.snap, tflag := Config.freeFlag s.freeCount, tlsb := Config.freeLsb s.freeCount }
      freeCount := s.freeCount + 1 } := by
  cases s; rfl

theorem State.enterHardwareTest_eq (s : State) : s.enterHardwareTest =
    { s with
      lstate := s.data, phase := .testingHardwareSource
      mbbits := BitVec.ofNat 16 Config.cfgA.bits, mbdraws := BitVec.ofNat 16 Config.cfgA.draws
      mbbound := BitVec.ofNat 16 Config.cfgA.bound, sum := 0#16, nbits := 0#16, dcnt := 0#16
      mbres := .none, runsrc := .hardware, runcnt := BitVec.ofNat 16 Config.cfgA.draws } := by
  cases s; rfl

namespace MachineInv

theorem countDraw_drawj_toNat (h : MachineInv s) : s.countDraw.drawj.toNat = s.drawj.toNat + 1 :=
  BitVec.toNat_add_of_lt (y := 1#3) (by have := h.drawsCounted; simp; omega)

theorem shiftBit_biti_toNat (h : MachineInv s) : s.countDraw.shiftBit.biti.toNat = s.biti.toNat + 1 :=
  BitVec.toNat_add_of_lt (y := 1#5) (by have := h.bitsVoted; simp; omega)

theorem countDraw_ones_le (h : MachineInv s) : s.countDraw.ones.toNat ≤ s.ones.toNat + 1 := by
  have ho := h.drawsCounted
  simp only [State.countDraw_ones]
  cases s.timer.tlsb with
  | false => simp
  | true => simp; omega

theorem lastVote_biti_toNat (h : MachineInv s) (hi : s.biti.toNat + 1 = s.nreq.toNat) :
    s.lastVote.biti.toNat = s.nreq.toNat :=
  h.shiftBit_biti_toNat.trans hi

theorem lastVote_sampling (h : MachineInv s) (hi : s.biti.toNat + 1 = s.nreq.toNat) :
    s.lastVote.sampling = false :=
  State.sampling_eq_false.mpr (.inr (by rw [State.lastVote_nreq, h.lastVote_biti_toNat hi]))

/-- A draw inside a SAMPLE: it only counts, or it votes a bit, or its vote is the SAMPLE's last. -/
theorem stepDraw_cases (h : MachineInv s) (hs : s.sampling = true) :
    (s.drawj.toNat < 4 ∧ s.stepDraw = s.countDraw) ∨
    (s.drawj.toNat = 4 ∧ s.biti.toNat + 1 < s.nreq.toNat ∧ s.stepDraw = s.countDraw.shiftBit) ∨
    (s.drawj.toNat = 4 ∧ s.biti.toNat + 1 = s.nreq.toNat ∧ s.stepDraw = s.lastVote.afterSample) := by
  have hj := h.countDraw_drawj_toNat
  have hi := h.shiftBit_biti_toNat
  have hj4 := h.drawsCounted.2
  obtain ⟨hop, hlt⟩ := State.sampling_eq_true.mp hs
  unfold State.stepDraw
  obtain ⟨hfew, he⟩ | ⟨hfive, he⟩ := s.takeDraw_cases <;> rw [he]
  · exact .inl ⟨by omega, if_pos hs⟩
  · obtain ⟨hmore, hv⟩ | ⟨hlast, hv⟩ := s.countDraw.voteBit_cases <;> rw [hv]
    · have hmore' : s.countDraw.shiftBit.sampling = true := State.sampling_eq_true.mpr ⟨hop, hmore⟩
      exact .inr (.inl ⟨by omega, hi ▸ hmore, if_pos hmore'⟩)
    · rw [State.countDraw_nreq] at hlast
      have hi' : s.biti.toNat + 1 = s.nreq.toNat := by omega
      exact .inr (.inr ⟨by omega, hi', if_neg (Bool.eq_false_iff.mp (h.lastVote_sampling hi'))⟩)

theorem countDraw (h : MachineInv s) (hj : s.drawj.toNat < 4) : MachineInv s.countDraw :=
  { h with
    drawsCounted := by
      have := h.drawsCounted
      have := h.countDraw_drawj_toNat
      have := h.countDraw_ones_le
      omega }

theorem shiftBit (h : MachineInv s) (hs : s.sampling = true) (hi : s.biti.toNat + 1 < s.nreq.toNat) :
    MachineInv s.countDraw.shiftBit := by
  have hop := (State.sampling_eq_true.mp hs).1
  have hb : s.countDraw.shiftBit.biti.toNat < s.nreq.toNat := by rwa [h.shiftBit_biti_toNat]
  rw [State.shiftBit_countDraw_eq] at hb ⊢
  exact { h with
    sampleHasBits := fun _ => hb
    idleHasNone := fun ht => absurd ht hop
    bitsVoted := ⟨hb.le, h.bitsVoted.2⟩
    drawsCounted := by simp
    seedHasBits := fun _ => hb
    samplingServesRun := fun _ => h.samplingServesRun hs
    timerOwned := fun _ => h.timerOwned hs }

/-! ## What follows the last vote (42_monobit_tester.md R114, 43_selftest_runner.md R131) -/

/-- A stand-alone SAMPLE ends its command. -/
theorem lastVote_idle (h : MachineInv s) (hi : s.biti.toNat + 1 = s.nreq.toNat) (hop : s.op = .sample) :
    MachineInv { s.lastVote with op := .idle } := by
  have hb := h.lastVote_biti_toNat hi
  have hmid := mt h.selftestPhases.mpr (by simp [hop])
  rw [State.lastVote_eq] at hb ⊢
  exact { h with
    sampleHasBits := nofun
    idleHasNone := fun _ => hb.ge
    bitsVoted := ⟨hb.le, h.bitsVoted.2⟩
    drawsCounted := by simp
    selftestPhases := iff_of_false nofun hmid
    seedHasBits := fun ht => absurd (.inl ht) hmid
    samplingServesRun := nofun
    timerOwned := nofun
    runCounts := fun hr => absurd (.inr (hr.resolve_left nofun)) hmid }

/-- In a run the word just sampled is still to be accumulated. -/
theorem lastVote_running (h : MachineInv s) (hi : s.biti.toNat + 1 = s.nreq.toNat) (hr : s.running) :
    MachineInv s.lastVote := by
  have hb := h.lastVote_biti_toNat hi
  have hs := h.lastVote_sampling hi
  rw [State.lastVote_eq] at hb hs ⊢
  exact { h with
    sampleHasBits := fun ht => absurd ht (h.op_ne_sample_of_running hr)
    idleHasNone := fun _ => hb.ge
    bitsVoted := ⟨hb.le, h.bitsVoted.2⟩
    drawsCounted := by simp
    seedHasBits := fun ht => absurd ht (h.phase_ne_seed_of_running hr)
    samplingServesRun := fun ht => absurd ht (Bool.eq_false_iff.mp hs)
    timerOwned := fun ht => absurd ht (Bool.eq_false_iff.mp hs) }

theorem lastVote_enterHardwareTest (h : MachineInv s) (hi : s.biti.toNat + 1 = s.nreq.toNat)
    (hphase : s.phase = .samplingSeed) : MachineInv s.lastVote.enterHardwareTest := by
  have hb := h.lastVote_biti_toNat hi
  have hs := h.lastVote_sampling hi
  have hop : s.op = .selftest := h.selftestPhases.mpr (.inl hphase)
  have hdone : s.done = false := by simpa [hphase] using h.doneIsPhase
  have hA := Config.cfgA_legal
  rw [State.lastVote_eq] at hb hs ⊢
  rw [State.enterHardwareTest_eq]
  exact { h with
    sampleHasBits := fun ht => nomatch hop.symm.trans ht
    idleHasNone := fun ht => nomatch hop.symm.trans ht
    bitsVoted := ⟨hb.le, h.bitsVoted.2⟩
    drawsCounted := by simp
    selftestPhases := iff_of_true hop (.inr (.inl rfl))
    seedHasBits := nofun
    samplingServesRun := fun ht => absurd ht (Bool.eq_false_iff.mp hs)
    timerOwned := fun ht => absurd ht (Bool.eq_false_iff.mp hs)
    doneIsPhase := iff_of_false (by simp [hdone]) nofun
    recordA := fun _ => h.recordA (.inr (.inl hphase))
    recordB := fun _ => h.recordB (by simp [hphase])
    testLength := by simp
    sumBound := by simp
    sumParity := by simp
    drawCount := by simp
    widthLegal := hA.toNat_bits.symm ▸ hA.bits
    runCounts := fun _ => ⟨rfl, Nat.zero_add _, by simpa [hA.toNat_bits, hA.toNat_draws] using hA.length, rfl⟩
    hardwareTestArgs := fun _ => ⟨rfl, hA.toNat_bits, hA.toNat_draws, hA.toNat_bound⟩
    streamTestArgs := nofun }

/-- The word of a run is accumulated as soon as it is sampled. -/
theorem lastVote_endDraw (h : MachineInv s) (hs : s.sampling = true)
    (hi : s.biti.toNat + 1 = s.nreq.toNat) (hr : s.running) : MachineInv s.lastVote.endDraw := by
  obtain ⟨-, hc⟩ := h.samplingServesRun hs hr
  exact (h.lastVote_running hi hr).endDraw (by simpa [State.running] using hr) (h.lastVote_sampling hi)
    (by simpa using hc.ne')

theorem lastVote_afterSample (h : MachineInv s) (hs : s.sampling = true)
    (hi : s.biti.toNat + 1 = s.nreq.toNat) : MachineInv s.lastVote.afterSample := by
  have hbusy := (State.sampling_eq_true.mp hs).1
  obtain ⟨hop, -⟩ | ⟨hop, he⟩ | ⟨hop, hp, he⟩ | ⟨hop, he⟩ := s.lastVote.afterSample_cases <;>
    simp only [State.lastVote_op, State.lastVote_phase] at hop
  · exact absurd hop hbusy
  · rw [he]; exact h.lastVote_idle hi hop
  · rw [he]; exact h.lastVote_enterHardwareTest hi (by simpa using hp)
  · have hr : s.running := hop.imp_right fun ⟨hself, hp⟩ => (h.selftestPhases.mp hself).resolve_left hp
    rw [he]; exact h.lastVote_endDraw hs hi hr

theorem stepDraw (h : MachineInv s) (hs : s.sampling = true) : MachineInv s.stepDraw := by
  obtain ⟨hj, he⟩ | ⟨-, hi, he⟩ | ⟨-, hi, he⟩ := h.stepDraw_cases hs <;> rw [he]
  · exact h.countDraw hj
  · exact h.shiftBit hs hi
  · exact h.lastVote_afterSample hs hi

/-! ## The loop of MBRUN and its end (42_monobit_tester.md R114, 43_selftest_runner.md R131) -/

theorem stepDrawWord (h : MachineInv s) (hr : s.running) (hs : s.sampling = false)
    (hc : s.runcnt.toNat ≠ 0) : MachineInv s.stepDrawWord := by
  unfold State.stepDrawWord
  cases hsrc : s.runsrc with
  | hardware => exact h.beginSample hr hc hsrc
  | stream => exact h.advanceStream.endDraw hr hs hc

/-- MBRUN as a command of its own ends with its verdict. -/
theorem judge_idle (h : MachineInv s) (hs : s.sampling = false) (hop : s.op = .mbrun) :
    MachineInv { s.judge with op := .idle } := by
  have hmid := mt h.selftestPhases.mpr (by simp [hop])
  exact { h with
    sampleHasBits := nofun
    idleHasNone := fun _ => (h.bits_done hs).ge
    selftestPhases := iff_of_false nofun hmid
    samplingServesRun := nofun
    timerOwned := nofun
    runCounts := fun hr => absurd (.inr (hr.resolve_left nofun)) hmid }

end MachineInv

theorem State.enterStreamTest_eq (s : State) : s.enterStreamTest =
    { s with
      fa := decide (verdictOf s.sum s.mbbound = .fail), suma := s.sum, phase := .testingStream
      mbbits := BitVec.ofNat 16 Config.cfgB.bits, mbdraws := BitVec.ofNat 16 Config.cfgB.draws
      mbbound := BitVec.ofNat 16 Config.cfgB.bound, sum := 0#16, nbits := 0#16, dcnt := 0#16
      mbres := .none, runsrc := .stream, runcnt := BitVec.ofNat 16 Config.cfgB.draws } := by
  cases s; rfl

theorem State.enterDone_eq (s : State) : s.enterDone =
    { s with
      mbres := verdictOf s.sum s.mbbound, fb := decide (verdictOf s.sum s.mbbound = .fail), sumb := s.sum
      phase := .done, done := true
      status := publishedStatus s.fa (decide (verdictOf s.sum s.mbbound = .fail)), op := .idle } := by
  cases s; rfl

namespace MachineInv

theorem enterStreamTest (h : MachineInv s) (hs : s.sampling = false)
    (hphase : s.phase = .testingHardwareSource) : MachineInv s.enterStreamTest := by
  have hop : s.op = .selftest := h.selftestPhases.mpr (.inr (.inl hphase))
  have hdone : s.done = false := by simpa [hphase] using h.doneIsPhase
  have hB := Config.cfgB_legal
  rw [State.enterStreamTest_eq]
  exact { h with
    selftestPhases := iff_of_true hop (.inr (.inr rfl))
    seedHasBits := nofun
    samplingServesRun := fun ht => absurd ht (Bool.eq_false_iff.mp hs)
    doneIsPhase := iff_of_false (by simp [hdone]) nofun
    statusAfter := fun ht => absurd ht (Bool.eq_false_iff.mp hdone)
    recordA := nofun
    recordB := fun _ => h.recordB (by simp [hphase])
    testLength := by simp
    sumBound := by simp
    sumParity := by simp
    drawCount := by simp
    widthLegal := hB.toNat_bits.symm ▸ hB.bits
    runCounts := fun _ => ⟨rfl, Nat.zero_add _, by simpa [hB.toNat_bits, hB.toNat_draws] using hB.length, rfl⟩
    hardwareTestArgs := nofun
    streamTestArgs := fun _ => ⟨rfl, hB.toNat_bits, hB.toNat_draws, hB.toNat_bound⟩ }

theorem enterDone (h : MachineInv s) (hs : s.sampling = false) : MachineInv s.enterDone := by
  rw [State.enterDone_eq]
  exact { h with
    sampleHasBits := nofun
    idleHasNone := fun _ => (h.bits_done hs).ge
    selftestPhases := by simp
    seedHasBits := nofun
    samplingServesRun := nofun
    timerOwned := nofun
    doneIsPhase := by simp
    statusBefore := nofun
    statusAfter := fun _ => rfl
    recordA := by simp
    recordB := fun hp => absurd rfl hp
    runCounts := by simp [State.running]
    hardwareTestArgs := nofun
    streamTestArgs := nofun }

theorem endRun (h : MachineInv s) (hs : s.sampling = false) : MachineInv s.endRun := by
  unfold State.endRun
  cases hop : s.op with
  | idle => exact h
  | sample => exact h
  | mbrun => exact h.judge_idle hs hop
  | selftest =>
    cases hp : s.phase with
    | idle => exact h
    | samplingSeed => exact h
    | testingHardwareSource => exact h.enterStreamTest hs hp
    | testingStream => exact h.enterDone hs
    | done => exact h

theorem blockStep (h : MachineInv s) : MachineInv s.blockStep := by
  obtain ⟨-, he⟩ | ⟨-, -, he⟩ | ⟨hs, -, he⟩ | ⟨-, hs, -, he⟩ | ⟨hop, hs, hc, he⟩ := s.blockStep_cases <;> rw [he]
  · exact h
  · exact h
  · exact h.stepDraw hs
  · exact h.endRun hs
  · exact h.stepDrawWord (h.running_of_busy hop hs) hs hc

/-! ## Commands, steps and runs -/

/-- A command refused by its own check only records the refusal. -/
theorem ite_raise (h : MachineInv s) {ok : Bool} (ht : ok = true → MachineInv t) (e : ErrCode) :
    MachineInv (if ok then t else s.raise e) := by
  split
  · next hok => exact ht hok
  · exact h.raise e

theorem after_execBody (h : MachineInv s) (hop : s.op = .idle) (i : Instr) : MachineInv (execBody i s) := by
  have hn := h.not_running_of_idle hop
  cases i with
  | nop => exact h
  | sample n => exact h.ite_raise (fun hok => h.acceptSample hop (sampleOperandOk_eq_true.mp hok)) _
  | seed => exact h.loadSeed
  | next => exact h.advanceStream
  | mbclr => exact h.clearTest hn
  | mbacc => exact h.ite_raise (fun hok => h.accumulate hn (State.accFits_eq_true.mp hok)) _
  | mbjudge => exact h.judge hn
  | mbrun src => exact h.ite_raise (fun hok => h.acceptMbrun hop (State.runFits_eq_true.mp hok) src) _
  | selftest => exact h.ite_raise (fun hok => h.acceptSelftest (State.selftestFresh_eq_true.mp hok)) _
  | clrerr => exact h.clearErr

theorem of_exec (h : MachineInv s) {i : Instr} (ht : exec i s = .next t) : MachineInv t := by
  obtain ⟨-, rfl⟩ | ⟨hb, rfl⟩ := exec_eq_next.mp ht
  · exact h.raise _
  · exact h.after_execBody (State.busy_eq_false.mp hb) i

theorem of_memWrite (h : MachineInv s) {i : RegIndex} {v : Word} (ht : memWrite i v s = .next t) :
    MachineInv t := by
  obtain ⟨-, he⟩ | ⟨-, -, c, -, he⟩ | ⟨-, -, -, he⟩ | ⟨hb, -, he⟩ := memWrite_cases i v s <;> rw [he] at ht
  · cases ht; exact h.raise _
  · exact h.of_exec ht
  · cases ht; exact h.raise _
  · cases ht; exact h.writeReg (State.busy_eq_false.mp hb) _ v

/-- Every step keeps the invariant, whoever's turn it is. -/
theorem of_step (h : MachineInv s) (ht : step s = .next t) : MachineInv t := by
  have hp := h.withPending s.pending.tail
  obtain ⟨-, rfl⟩ | ⟨i, v, -, hw⟩ | ⟨i, -, rfl⟩ | ⟨b, -, rfl⟩ | ⟨m, -, hs, rfl⟩ | ⟨-, rfl⟩ := step_cases ht
  · exact hp.blockStep
  · exact hp.of_memWrite hw
  · exact hp.memRead i
  · exact hp.capture b
  · exact hp.setTimer hs m
  · exact resetBlock _

end MachineInv

/-- What every step keeps, every run keeps. -/
theorem runs_keep {P : State → Prop} (hstep : ∀ s t, P s → step s = .next t → P t) {k : Nat}
    (hs : P s) (ht : runs k s = .next t) : P t := by
  induction k generalizing s with
  | zero => cases ht; exact hs
  | succ k ih =>
    simp only [runs, Host.Core.run] at ht
    split at ht
    · next u hu => exact ih (hstep s u hs hu) ht
    · cases ht
    · cases ht

theorem MachineInv.of_runs {k : Nat} (h : MachineInv s) (ht : runs k s = .next t) : MachineInv t :=
  runs_keep (fun _ _ => MachineInv.of_step) h ht

end Sys2Proof.Machine
end

section
/-! STAT and its codes, the values after reset, and the facts of 10_state.md R34. -/

namespace Sys2Proof.Machine

/-! ## STAT and its codes (10_state.md R14 to R19) -/

section
variable (s : State)

theorem State.statWord_busy : s.statWord.getLsbD 0 = decide (s.op ≠ .idle) := by
  rw [State.statWord, BitVec.getLsbD_append]
  simp [State.busy, bne, beq_eq_decide]

theorem State.statWord_done : s.statWord.getLsbD 1 = s.done := by
  rw [State.statWord, BitVec.getLsbD_append, BitVec.getLsbD_append]
  simp

theorem State.statWord_bit7 : s.statWord.getLsbD 7 = false := by
  rw [State.statWord]
  iterate 5 rw [BitVec.getLsbD_append]
  simp

theorem State.statWord_phase : s.statWord.extractLsb' 2 3 = s.phase.code := by
  rw [State.statWord]
  iterate 2 rw [BitVec.extractLsb'_append_eq_of_le (by decide)]
  rw [BitVec.extractLsb'_append_eq_of_add_le (by decide), BitVec.extractLsb'_eq_self]

theorem State.statWord_mbres : s.statWord.extractLsb' 5 2 = s.mbres.code := by
  rw [State.statWord]
  iterate 3 rw [BitVec.extractLsb'_append_eq_of_le (by decide)]
  rw [BitVec.extractLsb'_append_eq_of_add_le (by decide), BitVec.extractLsb'_eq_self]

theorem State.statWord_err : s.statWord.extractLsb' 8 3 = s.err.code := by
  rw [State.statWord]
  iterate 5 rw [BitVec.extractLsb'_append_eq_of_le (by decide)]
  rw [BitVec.extractLsb'_append_eq_of_add_le (by decide), BitVec.extractLsb'_eq_self]

theorem State.statWord_top : s.statWord.extractLsb' 11 5 = 0#5 := by
  rw [State.statWord]
  iterate 6 rw [BitVec.extractLsb'_append_eq_of_le (by decide)]
  exact BitVec.extractLsb'_eq_self

end

theorem Phase.code_le (p : Phase) : p.code.toNat ≤ 4 := by cases p <;> decide

theorem Verdict.code_le (v : Verdict) : v.code.toNat ≤ 2 := by cases v <;> decide

theorem ErrCode.code_le (e : ErrCode) : e.code.toNat ≤ 5 := by cases e <;> decide

/-! ## Host accesses, the turn being the host's -/

theorem step_read (s : State) (i : RegIndex) (rest : List Event) :
    step (s.withPending (.read i :: rest)) = .next ((s.withPending rest).memRead i) := rfl

theorem step_write (s : State) (i : RegIndex) (v : Word) (rest : List Event) :
    step (s.withPending (.write i v :: rest)) = memWrite i v (s.withPending rest) := rfl

theorem State.memRead_of_idle {s : State} (hb : s.busy = false) (i : RegIndex) :
    s.memRead i = { s with rdata := s.readReg (regOf i) } := by
  rw [State.memRead, hb]; rfl

/-- STAT is read exactly in every state, BUSY = 1 included (20_memory.md R47 (a)). -/
theorem State.memRead_stat (s : State) : s.memRead 1#4 = { s with rdata := s.statWord } := by
  have hexact : (regOf 1#4).exactWhileBusy = true := rfl
  simp [State.memRead, hexact]; rfl

/-- A write to a register other than CMD, the block being idle. -/
theorem memWrite_of_idle {s : State} {i : RegIndex} (hb : s.busy = false) (hr : regOf i ≠ .cmd) (v : Word) :
    memWrite i v s = .next (s.writeReg (regOf i) v) := by
  simp [memWrite, hb, hr]

end Sys2Proof.Machine

namespace Sys2Proof

open Machine

/-- Settles O18: STAT peeled field by field; a read of it is exact, a write of it ignored, as no CMD write. -/
theorem statFields : Obligations.StatFields := by
  refine ⟨fun s rest => ⟨?_, s.statWord_busy, s.statWord_done, s.statWord_phase, s.statWord_mbres,
    s.statWord_bit7, s.statWord_err, s.statWord_top⟩, by decide, fun s v rest hb => ?_, rfl, rfl, rfl⟩
  · rw [step_read, State.memRead_stat]; rfl
  · rw [step_write, memWrite_of_idle (s := s.withPending rest) hb (by decide)]; rfl

/-- Settles O19: the block is idle after reset, so every read is the register of that index. -/
theorem resetValues : Obligations.ResetValues := by
  refine ⟨fun i => ?_, by decide⟩
  rw [State.memRead_of_idle rfl]
  obtain ⟨i⟩ := i
  fin_cases i <;> rfl

/-- Settles O24: the invariant holds at reset, every step keeps it, and it contains R34 (a) to (h); (i) is what
the codes can be. -/
theorem reachableStateFacts : Obligations.ReachableStateFacts := by
  intro k tm c evs r n t ht
  have h : MachineInv t := (MachineInv.reset.setEnvironment rfl tm c evs r n).of_runs ht
  refine ⟨by rw [t.statWord_busy, decide_eq_true_iff], h.doneIsPhase, h.statusBefore, ⟨h.testLength, h.sumBound⟩,
    ?_, h.drawCount, h.widthLegal, fun _ => h.drawsCounted, t.phase.code_le, t.mbres.code_le, t.err.code_le⟩
  have hpar := h.sumParity
  omega

end Sys2Proof
end

section
/-! The host's accesses, index by index: which register an index names, what a read of it gives, idle or busy, and
what a write to it does (20_memory.md R41, R42, R46). -/

namespace Sys2Proof.Machine

variable {s : State} {i : RegIndex}

/-! ## The register an index names (10_state.md R10) -/

theorem regOf_eq_cmd : regOf i = .cmd ↔ i.toNat = 0 := by
  revert i; decide

theorem regOf_of_reserved (h : 13 ≤ i.toNat) : regOf i = .reserved := by
  revert i; decide

/-- The registers whose reads are specified at any time, by index (20_memory.md R47 (a) to (c)). -/
theorem exactWhileBusy_regOf : (regOf i).exactWhileBusy = true ↔ i.toNat ≤ 2 ∨ 13 ≤ i.toNat := by
  revert i; decide

/-! ## Reads (20_memory.md R41) -/

theorem State.statusWord_eq_setWidth (s : State) : s.statusWord = BitVec.setWidth 16 s.status :=
  (BitVec.setWidth_eq_append (by decide)).symm

theorem State.memRead_of_exact (h : (regOf i).exactWhileBusy = true) :
    s.memRead i = { s with rdata := s.readReg (regOf i) } := by
  simp [State.memRead, h]

theorem State.memRead_of_busy (hb : s.busy = true) (h : (regOf i).exactWhileBusy = false) :
    s.memRead i = { s with rdata := Config.freeRead s.freeCount, freeCount := s.freeCount + 1 } := by
  simp [State.memRead, hb, h]

/-- What each index holds: STAT, STATUS, 0 for CMD and the reserved indices, the registers of R10 between them. -/
theorem State.readReg_regOf (s : State) (i : RegIndex) :
    s.readReg (regOf i) =
      if i.toNat = 1 then s.statWord
      else if i.toNat = 2 then BitVec.setWidth 16 s.status
      else if i.toNat = 0 ∨ 13 ≤ i.toNat then 0#16
      else s.registersFrom3.getD (i.toNat - 3) 0#16 := by
  rw [← s.statusWord_eq_setWidth]
  obtain ⟨i⟩ := i
  fin_cases i <;> rfl

/-! ## Writes (20_memory.md R42) -/

theorem memWrite_of_busy (hb : s.busy = true) (i : RegIndex) (v : Word) :
    memWrite i v s = .next (s.raise .busy) := by
  simp [memWrite, hb]

theorem memWrite_cmd_of_idle (hb : s.busy = false) (hi : i.toNat = 0) (v : Word) :
    memWrite i v s = issueCommand v s := by
  simp [memWrite, hb, regOf_eq_cmd.mpr hi]

theorem issueCommand_of_ok {v : Word} {c : Instr} (hd : decode v = .ok c) (s : State) :
    issueCommand v s = exec c s := by
  rw [issueCommand, hd]

theorem issueCommand_of_error {v : Word} {e : DecodeError} (hd : decode v = .error e) (s : State) :
    issueCommand v s = .next (s.raise .illegal) := by
  rw [issueCommand, hd]

/-- MBBITS takes 1 to 16 and refuses every other value with E_OPERAND (42_monobit_tester.md R119). -/
theorem State.writeReg_mbbits (s : State) (v : Word) :
    s.writeReg .mbbits v =
      if v.toNat = 0 ∨ 16 < v.toNat then s.raise .operand else { s with mbbits := v } := by
  by_cases hv : mbbitsWriteOk v = true
  · have hw := mbbitsWriteOk_eq_true.mp hv
    rw [if_neg (by omega)]
    exact if_pos hv
  · have hw := mt mbbitsWriteOk_eq_true.mpr hv
    rw [if_pos (by omega)]
    exact if_neg hv

/-- What a write stores at each index: DATA, MBBITS, MBDRAWS and MBBOUND take it, every other index ignores it. -/
theorem State.writeReg_regOf (s : State) (i : RegIndex) (v : Word) :
    s.writeReg (regOf i) v =
      if i.toNat = 3 then { s with data := v }
      else if i.toNat = 8 then
        if v.toNat = 0 ∨ 16 < v.toNat then s.raise .operand else { s with mbbits := v }
      else if i.toNat = 9 then { s with mbdraws := v }
      else if i.toNat = 10 then { s with mbbound := v }
      else s := by
  rw [← s.writeReg_mbbits]
  obtain ⟨i⟩ := i
  fin_cases i <;> rfl

end Sys2Proof.Machine

namespace Sys2Proof

open Machine

/-- Settles O15: STAT, STATUS, CMD and the reserved indices are exact at any time, so only a read of another index
while BUSY = 1 takes a free value; every other read gives what the index holds. -/
theorem hostReadGivesRegister : Obligations.HostReadGivesRegister := by
  intro s i rest
  rw [step_read]
  by_cases hx : i.toNat ≤ 2 ∨ 13 ≤ i.toNat
  · rw [State.memRead_of_exact (exactWhileBusy_regOf.mpr hx), State.readReg_regOf]
    split_ifs
    · rfl
    · rfl
    · rfl
    · omega
    · rfl
  · have hfree : (regOf i).exactWhileBusy = false := Bool.eq_false_iff.mpr (mt exactWhileBusy_regOf.mp hx)
    have hstat : ¬ i.toNat = 1 := by omega
    have hstatus : ¬ i.toNat = 2 := by omega
    have hzero : ¬ (i.toNat = 0 ∨ 13 ≤ i.toNat) := by omega
    rw [if_neg hstat, if_neg hstatus, if_neg hzero]
    split_ifs with hb
    · rw [State.memRead_of_busy (s := s.withPending rest) hb hfree]
      rfl
    · rw [State.memRead_of_idle (s := s.withPending rest) (Bool.eq_false_iff.mpr hb), State.readReg_regOf,
        if_neg hstat, if_neg hstatus, if_neg hzero]
      rfl

/-- Settles O16: BUSY refuses first, then CMD decodes and runs, and any other index stores or ignores the value. -/
theorem hostWriteActs : Obligations.HostWriteActs := by
  intro s i v rest
  rw [step_write]
  refine ⟨fun hb => memWrite_of_busy (s := s.withPending rest) hb i v, fun hb hi => ?_, fun hb hi => ?_⟩
  · rw [memWrite_cmd_of_idle (s := s.withPending rest) hb hi]
    exact ⟨fun _ hd => issueCommand_of_ok hd _, fun _ hd => issueCommand_of_error hd _⟩
  · rw [memWrite_of_idle (s := s.withPending rest) hb (mt regOf_eq_cmd.mp hi), State.writeReg_regOf]
    rfl

/-- Settles O17: an index from 13 up names no register, which reads 0 exactly at any time and stores nothing. -/
theorem reservedIndices : Obligations.ReservedIndices := by
  intro s i v rest hi
  have hr : regOf i = .reserved := regOf_of_reserved hi
  rw [step_read, step_write]
  refine ⟨?_, fun hb => ?_, fun hb => memWrite_of_busy (s := s.withPending rest) hb i v⟩
  · rw [State.memRead_of_exact (exactWhileBusy_regOf.mpr (.inr hi)), hr]; rfl
  · rw [memWrite_of_idle (s := s.withPending rest) hb (by simp [hr]), hr]; rfl

end Sys2Proof
end

section
/-! The command words: a word splits into its fields, decode and encode agree, the 26 well-formed words, and the
two ways a word is refused (30_encoding.md R60, R64, R65). -/

namespace Sys2Proof

variable {w : Word} {i c : Instr}

/-! ## The fields of a word (30_encoding.md R60) -/

theorem opField_append_argField (w : Word) : opField w ++ argField w = w :=
  BitVec.extractLsb'_append_extractLsb' (w := 4) (len := 12)

theorem ofNat_append_argField {k : ℕ} (hop : (opField w).toNat = k) : BitVec.ofNat 4 k ++ argField w = w := by
  rw [← hop, BitVec.ofNat_toNat, BitVec.setWidth_eq, opField_append_argField]

theorem sampleZeroField_append_countField (w : Word) : sampleZeroField w ++ countField w = argField w :=
  BitVec.extractLsb'_append_extractLsb'_eq_extractLsb' (by decide)

theorem mbrunZeroField_append_bit (w : Word) : mbrunZeroField w ++ (sourceField w).bit = argField w := by
  have hbit : (sourceField w).bit = w.extractLsb' 0 1 := by
    rw [← BitVec.setWidth_eq_extractLsb' (by decide), BitVec.setWidth_one, sourceField]
    cases w.getLsbD 0 <;> rfl
  rw [hbit]
  exact BitVec.extractLsb'_append_extractLsb'_eq_extractLsb' (by decide)

/-! ## Decode and encode agree (30_encoding.md R61, R65) -/

/-- The operand check of every command: accepted exactly when the bits that must be 0 are 0. -/
theorem ite_ok_error_eq_ok {p : Prop} [Decidable p] {e : DecodeError} :
    (if p then .ok c else .error e) = Except.ok i ↔ p ∧ c = i := by
  split <;> simp [*]

theorem decodeBare_eq_ok : decodeBare w c = .ok i ↔ argField w = 0#12 ∧ c = i := ite_ok_error_eq_ok

theorem decodeSample_eq_ok :
    decodeSample w = .ok i ↔ sampleZeroField w = 0#7 ∧ .sample (countField w) = i := ite_ok_error_eq_ok

theorem decodeMbrun_eq_ok :
    decodeMbrun w = .ok i ↔ mbrunZeroField w = 0#11 ∧ .mbrun (sourceField w) = i := ite_ok_error_eq_ok

/-- A word with its opcode and no operand bit set is the word of that opcode's bare command. -/
theorem encode_of_decodeBare {k : ℕ} (hop : (opField w).toNat = k) (hc : encode c = BitVec.ofNat 4 k ++ 0#12)
    (h : decodeBare w c = .ok i) : encode i = w := by
  obtain ⟨harg, rfl⟩ := decodeBare_eq_ok.mp h
  rw [hc, ← harg, ofNat_append_argField hop]

theorem encode_of_decodeSample (hop : (opField w).toNat = 1) (h : decodeSample w = .ok i) : encode i = w := by
  obtain ⟨hzero, rfl⟩ := decodeSample_eq_ok.mp h
  calc encode (.sample (countField w)) = 1#4 ++ (0#7 ++ countField w) := BitVec.append_assoc
    _ = w := by rw [← hzero, sampleZeroField_append_countField, ofNat_append_argField hop]

theorem encode_of_decodeMbrun (hop : (opField w).toNat = 7) (h : decodeMbrun w = .ok i) : encode i = w := by
  obtain ⟨hzero, rfl⟩ := decodeMbrun_eq_ok.mp h
  calc encode (.mbrun (sourceField w)) = 7#4 ++ (0#11 ++ (sourceField w).bit) := BitVec.append_assoc
    _ = w := by rw [← hzero, mbrunZeroField_append_bit, ofNat_append_argField hop]

theorem encode_of_decode (h : decode w = .ok i) : encode i = w := by
  unfold decode at h
  split at h
  next hop => exact encode_of_decodeBare hop rfl h
  next hop => exact encode_of_decodeSample hop h
  next hop => exact encode_of_decodeBare hop rfl h
  next hop => exact encode_of_decodeBare hop rfl h
  next hop => exact encode_of_decodeBare hop rfl h
  next hop => exact encode_of_decodeBare hop rfl h
  next hop => exact encode_of_decodeBare hop rfl h
  next hop => exact encode_of_decodeMbrun hop h
  next hop => exact encode_of_decodeBare hop rfl h
  next hop => exact encode_of_decodeBare hop rfl h
  next => cases h

theorem decode_encode (i : Instr) : decode (encode i) = .ok i := by
  cases i with
  | sample n => revert n; decide
  | mbrun src => cases src <;> rfl
  | _ => rfl

theorem decode_eq_ok_iff : decode w = .ok i ↔ encode i = w :=
  ⟨encode_of_decode, fun h => h ▸ decode_encode i⟩

/-! ## The well-formed words (30_encoding.md R64) -/

/-- The well-formed commands, in the order in which O2 lists their words. -/
def wellFormedCommands : List Instr :=
  .nop :: .seed :: .next :: .mbclr :: .mbacc :: .mbjudge :: .mbrun .hardware :: .mbrun .stream :: .selftest ::
    .clrerr :: (List.range' 1 16).map fun n => .sample (BitVec.ofNat 5 n)

theorem mem_wellFormedCommands : i ∈ wellFormedCommands ↔ i.wellFormed = true := by
  cases i with
  | sample n => revert n; decide
  | mbrun src => cases src <;> decide
  | _ => decide

/-- A word decodes to a well-formed command exactly when it is the word of one. -/
theorem decodes_wellFormed_iff :
    (∃ i, decode w = .ok i ∧ i.wellFormed = true) ↔
      w.toNat ∈ wellFormedCommands.map fun i => (encode i).toNat := by
  simp only [List.mem_map, mem_wellFormedCommands, decode_eq_ok_iff, BitVec.toNat_inj, and_comm]

/-! ## The refused words (30_encoding.md R64, R65) -/

/-- The words of R64 that are no command: a reserved opcode, or an operand bit that must be 0 is 1. -/
def NoCommandWord (v : Nat) : Prop :=
  10 ≤ v / 4096 ∨ (v / 4096 ∈ [0, 2, 3, 4, 5, 6, 8, 9] ∧ v % 4096 ≠ 0) ∨
    (v / 4096 = 1 ∧ v % 4096 / 32 ≠ 0) ∨ (v / 4096 = 7 ∧ v % 4096 / 2 ≠ 0)

theorem encode_sample_toNat (n : BitVec 5) : (encode (.sample n)).toNat = 4096 + n.toNat := by
  revert n; decide

theorem not_noCommandWord_encode (i : Instr) : ¬ NoCommandWord (encode i).toNat := by
  unfold NoCommandWord
  cases i with
  | sample n =>
    have hn := n.isLt
    have hop : (4096 + n.toNat) / 4096 = 1 := by omega
    have hzero : (4096 + n.toNat) % 4096 / 32 = 0 := by omega
    rw [encode_sample_toNat, hop, hzero]
    simp
  | mbrun src => cases src <;> decide
  | _ => decide

theorem decode_of_noCommandWord (h : NoCommandWord w.toNat) : ∃ e, decode w = .error e := by
  cases hd : decode w with
  | ok i => exact absurd (encode_of_decode hd ▸ h) (not_noCommandWord_encode i)
  | error e => exact ⟨e, rfl⟩

/-- A SAMPLE word whose N is not 1 to 16 decodes to SAMPLE with that N (log 17). -/
theorem decode_sample_of_illegalCount (h : w.toNat = 0x1000 ∨ (0x1011 ≤ w.toNat ∧ w.toNat ≤ 0x101F)) :
    ∃ n : BitVec 5, decode w = .ok (.sample n) ∧ ¬ (1 ≤ n.toNat ∧ n.toNat ≤ 16) := by
  have hn : (BitVec.ofNat 5 (w.toNat - 4096)).toNat = w.toNat - 4096 :=
    (BitVec.toNat_ofNat ..).trans (Nat.mod_eq_of_lt (by omega))
  refine ⟨BitVec.ofNat 5 (w.toNat - 4096), decode_eq_ok_iff.mpr (BitVec.eq_of_toNat_eq ?_), ?_⟩
  · rw [encode_sample_toNat, hn]; omega
  · rw [hn]; omega

end Sys2Proof

namespace Sys2Proof.Machine

/-- A host write to CMD, the block being idle, issues the word. -/
theorem step_writeCmd_of_idle {s : State} (hb : s.busy = false) (w : Word) (rest : List Event) :
    step (s.withPending (.write 0#4 w :: rest)) = issueCommand w (s.withPending rest) := by
  rw [step_write]
  exact memWrite_cmd_of_idle (s := s.withPending rest) hb rfl w

/-- SAMPLE refuses an N that is not 1 to 16 (40_noise_sampler.md R88). -/
theorem exec_sample_of_illegalCount {s : State} {n : BitVec 5} (hb : s.busy = false)
    (hn : ¬ (1 ≤ n.toNat ∧ n.toNat ≤ 16)) : exec (.sample n) s = .next (s.raise .operand) :=
  exec_eq_next.mpr (.inr ⟨hb, (if_neg (mt sampleOperandOk_eq_true.mp hn)).symm⟩)

end Sys2Proof.Machine

namespace Sys2Proof

open Machine

/-- Settles O2: decode inverts encode, so the well-formed words are the words of the well-formed commands, which
compute to the 26 listed; a word of a refused class is no command's; and a SAMPLE word with an illegal N runs
SAMPLE, which refuses it. -/
theorem everyWordClassified : Obligations.EveryWordClassified := by
  refine ⟨fun w => decodes_wellFormed_iff, fun s w rest hb hw => ?_, fun s w rest hb hw => ?_⟩
  · obtain ⟨e, hd⟩ := decode_of_noCommandWord hw
    rw [step_writeCmd_of_idle hb, issueCommand_of_error hd]
    rfl
  · obtain ⟨n, hd, hn⟩ := decode_sample_of_illegalCount hw
    rw [step_writeCmd_of_idle hb, issueCommand_of_ok hd]
    exact exec_sample_of_illegalCount (s := s.withPending rest) hb hn

end Sys2Proof
end

section
/-! The CaptureTimer port: the timer's own turn, and what each port operation does to the whole state. -/

namespace Sys2Proof.Machine

/-- The timer's turn is its `Capture(b)`, in every state (40_noise_sampler.md R87, log 9). -/
theorem step_capture (s : State) (b : Bool) (rest : List Event) :
    step (s.withPending (.capture b :: rest)) = .next ((s.withPending rest).capture b) := rfl

/-- `restore_config` moves nothing but the timer and the counter of free values (40_noise_sampler.md R86). -/
theorem State.restoreConfig_frame (s : State) :
    s.restoreConfig = { s with timer := s.restoreConfig.timer, freeCount := s.restoreConfig.freeCount } := rfl

end Sys2Proof.Machine

namespace Sys2Proof

open Machine

/-- Settles O25: a capture's turn is the timer's step, four port operations are their definitions, and
restore_config gives SNAP back within its frame. -/
theorem timerPortOperations : Obligations.TimerPortOperations := by
  refine ⟨fun s b rest => ?capture, fun s => ⟨?save, ?configure, ?clear, ?read, ?restore, ?frame⟩⟩
  case capture => rw [step_capture, State.capture, State.withPending_timer]
  case save => rw [State.saveConfig]
  case configure => rw [State.configureCapture]
  case clear => rw [State.clearCaptureFlag]
  case read => rw [State.readCaptureLsb]
  case restore => rw [State.restoreConfig_timer]
  case frame => exact s.restoreConfig_frame

end Sys2Proof
end

section
/-! The stream extender: the generator function `next` as word arithmetic, and its commands SEED and NEXT, idle,
busy and with a non-zero ARG (41_stream_extender.md). -/

namespace Sys2Proof.Machine

variable {s : State}

/-! ## The function `next` (41_stream_extender.md R100, R103) -/

theorem lcgNext_toNat (w : Word) : (lcgNext w).toNat = (49381 * w.toNat + 8643) % 65536 := by
  rw [lcgNext, BitVec.toNat_ofNat, Nat.add_comm]
  rfl

/-- `next` is affine on words, whose sum and product wrap. -/
theorem lcgNext_eq_mul_add (w : Word) : lcgNext w = 49381#16 * w + 8643#16 := by
  apply BitVec.eq_of_toNat_eq
  rw [lcgNext_toNat, BitVec.toNat_add, BitVec.toNat_mul, Nat.mod_add_mod]
  rfl

/-- The low 16 bits of a product and of a sum do not depend on the signedness of the operands. -/
theorem lcgNext_eq_ofInt (w : Word) : lcgNext w = BitVec.ofInt 16 (49381 * w.toInt + 8643) := by
  rw [lcgNext_eq_mul_add, BitVec.ofInt_add, BitVec.ofInt_mul, BitVec.ofInt_toInt]
  rfl

theorem lcgNext_lcgNext_toNat (w : Word) :
    (lcgNext (lcgNext w)).toNat = (49381 * (49381 * w.toNat + 8643) + 8643) % 65536 := by
  rw [lcgNext_toNat, lcgNext_toNat, Nat.add_mod, Nat.mul_mod_mod, ← Nat.add_mod]

/-! ## Commands, idle and busy -/

theorem exec_of_idle (hb : s.busy = false) (i : Instr) : exec i s = .next (execBody i s) :=
  exec_eq_next.mpr (.inr ⟨hb, rfl⟩)

theorem exec_of_busy (hb : s.busy = true) (i : Instr) : exec i s = .next (s.raise .busy) :=
  exec_eq_next.mpr (.inl ⟨hb, rfl⟩)

theorem exec_seed_of_idle (hb : s.busy = false) : exec .seed s = .next { s with lstate := s.data } :=
  exec_of_idle hb .seed

theorem exec_next_of_idle (hb : s.busy = false) :
    exec .next s = .next { s with lstate := lcgNext s.lstate, data := lcgNext s.lstate } :=
  exec_of_idle hb .next

/-- A word of R64's refused classes, written to CMD of an idle block, is refused with E_ILLEGAL. -/
theorem step_writeCmd_of_noCommandWord {w : Word} (hb : s.busy = false) (hw : NoCommandWord w.toNat)
    (rest : List Event) :
    step (s.withPending (.write 0#4 w :: rest)) = .next ((s.withPending rest).raise .illegal) := by
  obtain ⟨e, hd⟩ := decode_of_noCommandWord hw
  rw [step_writeCmd_of_idle hb, issueCommand_of_error hd]

end Sys2Proof.Machine

namespace Sys2Proof

open Machine

theorem noCommandWord_of_streamOpcode {v : Nat} (hop : v / 4096 = 2 ∨ v / 4096 = 3) (harg : v % 4096 ≠ 0) :
    NoCommandWord v := by
  have hbare : v / 4096 ∈ [0, 2, 3, 4, 5, 6, 8, 9] := by
    rcases hop with hop | hop <;> simp [hop]
  exact .inr (.inl ⟨hbare, harg⟩)

/-- Settles O33: the model's constants, with the product and the sum reduced once. -/
theorem lcgFunction : Obligations.LcgFunction := lcgNext_toNat

/-- Settles O34: reduction commutes with product and sum, the word's sum and product ignore signedness, and NEXT's
whole next state is its body's. -/
theorem lcgArithmeticLaws : Obligations.LcgArithmeticLaws :=
  ⟨lcgNext_lcgNext_toNat, lcgNext_eq_ofInt, fun _ hb => exec_next_of_idle hb⟩

/-- Settles O6: each command's body when idle, NEXT's value by R100's formula; the words by decode's inverse; an
operand bit set is no command's word; and E_BUSY comes before any body. -/
theorem streamCommands : Obligations.StreamCommands := by
  refine ⟨fun s hb => ?seed, fun s hb => ?next, ?seedWord, ?nextWord, fun s w rest hb hop harg => ?illegal,
    fun s hb => ?busy⟩
  case seed => exact exec_seed_of_idle hb
  case next =>
    rw [exec_next_of_idle hb, ← lcgNext_toNat, BitVec.ofNat_toNat, BitVec.setWidth_eq]
  case seedWord => exact decode_encode .seed
  case nextWord => exact decode_encode .next
  case illegal => exact step_writeCmd_of_noCommandWord hb (noCommandWord_of_streamOpcode hop harg) rest
  case busy => exact ⟨exec_of_busy hb .seed, exec_of_busy hb .next⟩

end Sys2Proof
end

section
/-! The monobit tester: the contribution of a word as the sum over its top bits, and the commands MBCLR, MBACC and
MBJUDGE, idle, busy and with a non-zero ARG (42_monobit_tester.md). -/

namespace Sys2Proof.Machine

variable {s : State} {v w : Word} {b k : ℕ}

/-! ## The contribution of a word (42_monobit_tester.md R110) -/

theorem getMsbD_eq_getLsbD_fifteen_sub (hk : k < 16) (w : Word) : w.getMsbD k = w.getLsbD (15 - k) := by
  simp [BitVec.getMsbD_eq_getLsbD, hk]

theorem contrib_eq_sum (hb : b ≤ 16) (w : Word) :
    contrib w b = ∑ k ∈ Finset.range b, if w.getLsbD (15 - k) then (1 : Int) else -1 := by
  induction b with
  | zero => rfl
  | succ k ih =>
    rw [contrib, ih (by omega), getMsbD_eq_getLsbD_fifteen_sub (by omega), Finset.sum_range_succ]

/-- A sum of +1 and -1 is twice the count of the +1 less the count of all. -/
theorem sum_ite_one_neg_one {α : Type} (u : Finset α) (p : α → Prop) [DecidablePred p] :
    (∑ a ∈ u, if p a then (1 : Int) else -1) = 2 * ((u.filter p).card : Int) - u.card := by
  have hterm (a : α) : (if p a then (1 : Int) else -1) = 2 * (if p a then 1 else 0) - 1 := by split <;> rfl
  simp only [hterm, Finset.sum_sub_distrib, ← Finset.mul_sum, Finset.sum_boole, Finset.sum_const, nsmul_one]

theorem contrib_eq_two_mul_card_sub (hb : b ≤ 16) (w : Word) :
    contrib w b = 2 * (((Finset.range b).filter fun k => w.getLsbD (15 - k) = true).card : Int) - b := by
  rw [contrib_eq_sum hb, sum_ite_one_neg_one, Finset.card_range]

/-- Bit `15 - k` of a word, one of its top `b`, is bit `b - 1 - k` of the word shifted down to them. -/
theorem getLsbD_shiftRight_top (hb : b ≤ 16) (hk : k < b) (w : Word) :
    (w >>> (16 - b)).getLsbD (b - 1 - k) = w.getLsbD (15 - k) := by
  rw [BitVec.getLsbD_ushiftRight]
  congr 1
  omega

theorem contrib_eq_of_top_eq (hb : b ≤ 16) (h : v >>> (16 - b) = w >>> (16 - b)) :
    contrib v b = contrib w b := by
  rw [contrib_eq_sum hb, contrib_eq_sum hb]
  refine Finset.sum_congr rfl fun k hk => ?_
  have hkb : k < b := Finset.mem_range.mp hk
  rw [← getLsbD_shiftRight_top hb hkb v, h, getLsbD_shiftRight_top hb hkb w]

/-! ## Commands, idle (42_monobit_tester.md R111 to R113) -/

theorem exec_mbclr_of_idle (hb : s.busy = false) :
    exec .mbclr s = .next { s with sum := 0#16, nbits := 0#16, dcnt := 0#16, mbres := .none } :=
  exec_of_idle hb .mbclr

/-- Word addition wraps as the reduction of the unbounded sum does, so the check is not needed here. -/
theorem State.accumulate_eq (s : State) :
    s.accumulate = { s with
      sum := BitVec.ofInt 16 (s.sum.toInt + contrib s.data s.mbbits.toNat)
      nbits := BitVec.ofNat 16 (s.nbits.toNat + s.mbbits.toNat)
      dcnt := BitVec.ofNat 16 (s.dcnt.toNat + 1)
      mbres := .none } := by
  simp [State.accumulate, BitVec.ofNat_add]

theorem exec_mbacc_of_fits (hb : s.busy = false) (hfit : s.nbits.toNat + s.mbbits.toNat ≤ 32767) :
    exec .mbacc s = .next s.accumulate :=
  exec_eq_next.mpr (.inr ⟨hb, (if_pos (State.accFits_eq_true.mpr hfit)).symm⟩)

theorem exec_mbacc_of_overrun (hb : s.busy = false) (hover : 32767 < s.nbits.toNat + s.mbbits.toNat) :
    exec .mbacc s = .next (s.raise .overrun) :=
  exec_eq_next.mpr (.inr ⟨hb, (if_neg (mt State.accFits_eq_true.mp hover.not_ge)).symm⟩)

theorem verdictOf_of_exceeds {sum bound : Word} (h : bound.toNat < sum.toInt.natAbs) :
    verdictOf sum bound = .fail := if_pos h

theorem verdictOf_of_within {sum bound : Word} (h : sum.toInt.natAbs ≤ bound.toNat) :
    verdictOf sum bound = .pass := if_neg h.not_gt

theorem exec_mbjudge_of_idle (hb : s.busy = false) :
    exec .mbjudge s = .next { s with mbres := verdictOf s.sum s.mbbound } :=
  exec_of_idle hb .mbjudge

end Sys2Proof.Machine

namespace Sys2Proof

open Machine

theorem noCommandWord_of_testerOpcode {v : Nat} (hop : v / 4096 = 4 ∨ v / 4096 = 5 ∨ v / 4096 = 6)
    (harg : v % 4096 ≠ 0) : NoCommandWord v := by
  have hbare : v / 4096 ∈ [0, 2, 3, 4, 5, 6, 8, 9] := by
    rcases hop with hop | hop | hop <;> simp [hop]
  exact .inr (.inl ⟨hbare, harg⟩)

/-- Settles O39: the recursion of contrib is the sum over the top bits, whose terms count ones and zeros and read no
bit below; range and parity hold term by term. -/
theorem contributionLaws : Obligations.ContributionLaws := fun w b _ hb =>
  ⟨contrib_eq_sum hb w, contrib_eq_two_mul_card_sub hb w, contrib_bounds w b, contrib_emod_two w b,
    fun _ htop => contrib_eq_of_top_eq hb htop⟩

/-- Settles O7: each command's body when idle, MBACC split by its check and MBJUDGE by its strict comparison; the
words by decode's inverse; an operand bit set is no command's word; and E_BUSY comes before any body. -/
theorem testerCommands : Obligations.TesterCommands := by
  refine ⟨fun s hb => ?clear, fun s hb hfit => ?accumulate, fun s hb hover => ?overrun, fun s hb hexceeds => ?fail,
    fun s hb hwithin => ?pass, ?clearWord, ?accumulateWord, ?judgeWord, fun s w rest hb hop harg => ?illegal,
    fun s hb => ?busy⟩
  case clear => exact exec_mbclr_of_idle hb
  case accumulate => rw [exec_mbacc_of_fits hb hfit, State.accumulate_eq]
  case overrun => exact exec_mbacc_of_overrun hb hover
  case fail => rw [exec_mbjudge_of_idle hb, verdictOf_of_exceeds hexceeds]
  case pass => rw [exec_mbjudge_of_idle hb, verdictOf_of_within hwithin]
  case clearWord => exact decode_encode .mbclr
  case accumulateWord => exact decode_encode .mbacc
  case judgeWord => exact decode_encode .mbjudge
  case illegal => exact step_writeCmd_of_noCommandWord hb (noCommandWord_of_testerOpcode hop harg) rest
  case busy => exact ⟨exec_of_busy hb .mbclr, exec_of_busy hb .mbacc, exec_of_busy hb .mbjudge⟩

end Sys2Proof
end

section
/-! The housekeeping commands NOP and CLRERR, and the publication of the self-test's result: no step but the one
that enters Done, or a reset, moves STATUS or DONE (43_selftest_runner.md R133 to R135). -/

namespace Sys2Proof.Machine

variable {s t : State}

/-! ## The published result (10_state.md R17, R23) -/

/-- What the self-test publishes at Done: STATUS and DONE. -/
def State.published (s : State) : BitVec 2 × Bool := (s.status, s.done)

theorem State.published_eq_iff : t.published = s.published ↔ t.status = s.status ∧ t.done = s.done :=
  Prod.mk_inj

@[simp] theorem State.withPending_published (s : State) (p : List Event) :
    (s.withPending p).published = s.published := by simp [State.published]

@[simp] theorem State.raise_published (s : State) (e : ErrCode) : (s.raise e).published = s.published := by
  simp [State.published]

/-- The indicator follows DONE: a step that leaves DONE sets nothing (60_exceptions.md R162). -/
theorem indSet_of_done_eq (h : t.done = s.done) : indSet s t = none := by
  simp [indSet, State.doneO, h]

theorem indSet_of_done_rises (hs : s.done = false) (ht : t.done = true) : indSet s t = some t.status := by
  simp [indSet, State.doneO, State.statusO, hs, ht]

/-! ## What publishes nothing -/

theorem State.takeDraw_published (s : State) : s.takeDraw.published = s.published := by
  obtain ⟨-, he⟩ | ⟨-, he⟩ := s.takeDraw_cases <;> rw [he]
  · simp [State.published]
  · obtain ⟨-, hv⟩ | ⟨-, hv⟩ := s.countDraw.voteBit_cases <;> rw [hv] <;> simp [State.published]

theorem State.afterSample_published (s : State) : s.afterSample.published = s.published := by
  obtain ⟨-, he⟩ | ⟨-, he⟩ | ⟨-, -, he⟩ | ⟨-, he⟩ := s.afterSample_cases <;> rw [he] <;>
    simp [State.published]

theorem State.stepDraw_published (s : State) : s.stepDraw.published = s.published := by
  unfold State.stepDraw
  split
  · exact s.takeDraw_published
  · rw [State.afterSample_published, State.takeDraw_published]

theorem State.stepDrawWord_published (s : State) : s.stepDrawWord.published = s.published := by
  unfold State.stepDrawWord
  cases s.runsrc <;> simp [State.published]

theorem State.memRead_published (s : State) (i : RegIndex) : (s.memRead i).published = s.published := by
  rw [State.memRead_eq]; rfl

theorem State.writeReg_published (s : State) (r : Reg) (v : Word) :
    (s.writeReg r v).published = s.published := by
  obtain he | ⟨-, he⟩ | ⟨-, -, he⟩ | ⟨-, -, he⟩ | ⟨-, he⟩ | ⟨-, he⟩ := s.writeReg_cases r v <;> rw [he] <;>
    simp [State.published]

theorem ite_raise_published {ok : Bool} {e : ErrCode} (ht : t.published = s.published) :
    (if ok then t else s.raise e).published = s.published := by
  split
  · exact ht
  · exact s.raise_published e

/-- No command publishes on its acceptance or refusal, SELFTEST included. -/
theorem execBody_published (i : Instr) (s : State) : (execBody i s).published = s.published := by
  cases i with
  | nop => rfl
  | sample n => exact ite_raise_published (by simp [State.published])
  | seed => simp [execBody, State.published]
  | next => simp [execBody, State.published]
  | mbclr => simp [execBody, State.published]
  | mbacc => exact ite_raise_published (by simp [State.published])
  | mbjudge => simp [execBody, State.published]
  | mbrun src => exact ite_raise_published (by simp [State.published])
  | selftest => exact ite_raise_published (by simp [State.published])
  | clrerr => simp [execBody, State.published]

theorem published_of_exec {i : Instr} (ht : exec i s = .next t) : t.published = s.published := by
  obtain ⟨-, rfl⟩ | ⟨-, rfl⟩ := exec_eq_next.mp ht
  · exact s.raise_published _
  · exact execBody_published i s

theorem published_of_memWrite {i : RegIndex} {v : Word} (ht : memWrite i v s = .next t) :
    t.published = s.published := by
  obtain ⟨-, he⟩ | ⟨-, -, c, -, he⟩ | ⟨-, -, -, he⟩ | ⟨-, -, he⟩ := memWrite_cases i v s <;> rw [he] at ht
  · cases ht; exact s.raise_published _
  · exact published_of_exec ht
  · cases ht; exact s.raise_published _
  · cases ht; exact s.writeReg_published _ v

/-! ## What publishes: the end of the stream test (43_selftest_runner.md R131, R133) -/

theorem State.endRun_published_or_enterDone (s : State) :
    s.endRun.published = s.published ∨
    (s.op = .selftest ∧ s.phase = .testingStream ∧ s.endRun = s.enterDone) := by
  unfold State.endRun
  cases hop : s.op with
  | idle => exact .inl rfl
  | sample => exact .inl rfl
  | mbrun => exact .inl (by simp [State.published])
  | selftest =>
    cases hp : s.phase with
    | idle => exact .inl rfl
    | samplingSeed => exact .inl rfl
    | testingHardwareSource => exact .inl (by simp [State.published])
    | testingStream => exact .inr ⟨rfl, rfl, rfl⟩
    | done => exact .inl rfl

theorem State.blockStep_published_or_enterDone (s : State) :
    s.blockStep.published = s.published ∨
    (s.op = .selftest ∧ s.phase = .testingStream ∧ s.blockStep = s.enterDone) := by
  obtain ⟨-, he⟩ | ⟨-, -, he⟩ | ⟨-, -, he⟩ | ⟨-, -, -, he⟩ | ⟨-, -, -, he⟩ := s.blockStep_cases <;> rw [he]
  · exact .inl rfl
  · exact .inl rfl
  · exact .inl s.stepDraw_published
  · exact s.endRun_published_or_enterDone
  · exact .inl s.stepDrawWord_published

/-- In every state, a step other than reset publishes nothing, or it is the block's turn that enters Done. -/
theorem step_published_or_enterDone (ht : step s = .next t) (hr : ¬ s.nextIs .reset) :
    t.published = s.published ∨
    (s.op = .selftest ∧ s.phase = .testingStream ∧ s.blockTurn ∧
      t = (s.withPending s.pending.tail).enterDone) := by
  obtain ⟨hturn, rfl⟩ | ⟨i, v, -, hw⟩ | ⟨i, -, rfl⟩ | ⟨b, -, rfl⟩ | ⟨m, -, -, rfl⟩ | ⟨hreset, -⟩ := step_cases ht
  · have hblock : s.blockTurn := hturn.imp_left List.head?_eq_none_iff.mpr
    obtain hsame | ⟨hop, hp, he⟩ := (s.withPending s.pending.tail).blockStep_published_or_enterDone
    · exact .inl (hsame.trans (s.withPending_published _))
    · exact .inr ⟨by simpa using hop, by simpa using hp, hblock, he⟩
  · exact .inl ((published_of_memWrite hw).trans (s.withPending_published _))
  · exact .inl ((State.memRead_published _ i).trans (s.withPending_published _))
  · exact .inl (by simp [State.published])
  · exact .inl (by simp [State.published])
  · exact absurd hreset hr

/-- STATUS is FA in bit 0 and FB in bit 1 (10_state.md R23). -/
theorem publishedStatus_getLsbD (fa fb : Bool) :
    (publishedStatus fa fb).getLsbD 0 = fa ∧ (publishedStatus fa fb).getLsbD 1 = fb := by
  revert fa fb; decide

end Sys2Proof.Machine

namespace Sys2Proof

open Machine

/-- Settles O45: only the block's turn that enters Done publishes, by going through every step; before that turn
PHASE 3 gives DONE = 0 and STATUS = 0 by the invariant. -/
theorem statusPublishedOnceAtDone : Obligations.StatusPublishedOnceAtDone := by
  intro s t h ht hr
  obtain hsame | ⟨hop, hp, hblock, rfl⟩ := step_published_or_enterDone ht hr
  · obtain ⟨hstatus, hdone⟩ := State.published_eq_iff.mp hsame
    exact .inl ⟨hstatus, hdone, indSet_of_done_eq hdone⟩
  · have hdone : s.done = false := by simpa [hp] using h.doneIsPhase
    obtain ⟨hfa, hfb⟩ := publishedStatus_getLsbD s.fa (decide (verdictOf s.sum s.mbbound = .fail))
    exact .inr ⟨hdone, h.statusBefore hdone, hop, hp, hblock, rfl, rfl, rfl, by simpa using hfa,
      by simpa using hfb, indSet_of_done_rises hdone rfl⟩

/-- Settles O5: each command's body when idle; the words by decode's inverse; an operand bit set is no command's
word; and E_BUSY comes before any body. -/
theorem housekeepingCommands : Obligations.HousekeepingCommands := by
  refine ⟨fun s hb => ?nop, fun s hb => ?clrerr, ?nopWord, ?clrerrWord, fun s w rest hb hop harg => ?illegal,
    fun s hb => ?busy⟩
  case nop => exact exec_of_idle hb .nop
  case clrerr => exact exec_of_idle hb .clrerr
  case nopWord => exact decode_encode .nop
  case clrerrWord => exact decode_encode .clrerr
  case illegal =>
    have hbare : w.toNat / 4096 ∈ [0, 2, 3, 4, 5, 6, 8, 9] := by
      rcases hop with hop | hop <;> simp [hop]
    exact step_writeCmd_of_noCommandWord hb (.inr (.inl ⟨hbare, harg⟩)) rest
  case busy => exact ⟨exec_of_busy hb .nop, exec_of_busy hb .clrerr⟩

end Sys2Proof
end

section
/-! Refusals: every host write either meets the one refusal of 60_exceptions.md R156, and then only ERR can change, or
is accepted, and then only CLRERR touches ERR; no other step but reset does (R155). -/

namespace Sys2Proof.Machine

variable {s t : State} {e : ErrCode} {i : RegIndex} {v : Word} {c : Instr}

/-! ## The refusal a write meets (60_exceptions.md R156) -/

/-- The refusal a command meets when the block is idle, by the checks `execBody` makes. -/
def commandRefusal (c : Instr) (s : State) : ErrCode :=
  match c with
  | .sample n => if sampleOperandOk n then .none else .operand
  | .mbacc => if s.accFits then .none else .overrun
  | .mbrun _ => if s.runFits then .none else .operand
  | .selftest => if s.selftestFresh then .none else .repeated
  | _ => .none

theorem expectedRefusal_of_busy (hb : s.busy = true) (i : RegIndex) (v : Word) :
    expectedRefusal s i v = .busy := if_pos (State.busy_eq_true.mp hb)

theorem expectedRefusal_of_error {d : DecodeError} (hb : s.busy = false) (hd : decode v = .error d) :
    expectedRefusal s 0#4 v = .illegal := by
  simp [expectedRefusal, State.busy_eq_false.mp hb, hd]

/-- R156 words a check by what it refuses, the model by what it accepts. -/
theorem ite_refused_eq_ite_ok {p : Prop} [Decidable p] {ok : Bool} (hok : ok = true ↔ ¬ p) (e : ErrCode) :
    (if p then e else .none) = if ok then .none else e := by
  simp only [hok, ite_not]

theorem expectedRefusal_of_ok (hb : s.busy = false) (hd : decode v = .ok c) :
    expectedRefusal s 0#4 v = commandRefusal c s := by
  rw [expectedRefusal, if_neg (not_not.mpr (State.busy_eq_false.mp hb)), if_pos rfl, hd]
  cases c with
  | sample n => exact ite_refused_eq_ite_ok (sampleOperandOk_eq_true.trans (by omega)) _
  | mbacc => exact ite_refused_eq_ite_ok (State.accFits_eq_true.trans Nat.not_lt.symm) _
  | mbrun src => exact ite_refused_eq_ite_ok (State.runFits_eq_true.trans Nat.not_lt.symm) _
  | selftest => exact (if_congr State.selftestFresh_eq_true rfl rfl).symm
  | _ => rfl

theorem expectedRefusal_of_ne_cmd (hb : s.busy = false) (hi : i ≠ 0#4) (v : Word) :
    expectedRefusal s i v = if i = 8#4 ∧ (v.toNat = 0 ∨ 16 < v.toNat) then .operand else .none := by
  simp [expectedRefusal, State.busy_eq_false.mp hb, hi]

/-! ## What a write does to ERR (60_exceptions.md R155) -/

/-- From `s` to `t` the refusal `e` was recorded and nothing else changed, or there was none and ERR is kept. -/
def RefusedOrKept (e : ErrCode) (s t : State) : Prop := t = s.raise e ∨ (e = .none ∧ t.err = s.err)

namespace RefusedOrKept

theorem eq_raise (h : RefusedOrKept e s t) (he : e ≠ .none) : t = s.raise e :=
  h.resolve_right fun ⟨hnone, _⟩ => he hnone

theorem ite_raise {ok : Bool} (ht : t.err = s.err) (e : ErrCode) :
    RefusedOrKept (if ok then .none else e) s (if ok then t else s.raise e) := by
  cases ok
  · exact .inl rfl
  · exact .inr ⟨rfl, ht⟩

end RefusedOrKept

theorem execBody_refusedOrKept (hc : c ≠ .clrerr) (s : State) :
    RefusedOrKept (commandRefusal c s) s (execBody c s) := by
  cases c with
  | nop => exact .inr ⟨rfl, rfl⟩
  | sample n => exact .ite_raise (s.acceptSample_err n) _
  | seed => exact .inr ⟨rfl, s.loadSeed_err⟩
  | next => exact .inr ⟨rfl, s.advanceStream_err⟩
  | mbclr => exact .inr ⟨rfl, s.clearTest_err⟩
  | mbacc => exact .ite_raise s.accumulate_err _
  | mbjudge => exact .inr ⟨rfl, s.judge_err⟩
  | mbrun src => exact .ite_raise (s.acceptMbrun_err src) _
  | selftest => exact .ite_raise s.acceptSelftest_err _
  | clrerr => exact absurd rfl hc

/-- Of the registers beside CMD only MBBITS refuses a value. -/
theorem writeReg_refusedOrKept (hb : s.busy = false) (hi : i ≠ 0#4) (v : Word) :
    RefusedOrKept (expectedRefusal s i v) s (s.writeReg (regOf i) v) := by
  rw [expectedRefusal_of_ne_cmd hb hi, State.writeReg_regOf]
  by_cases h8 : i = 8#4
  · subst h8
    by_cases hv : v.toNat = 0 ∨ 16 < v.toNat
    · exact .inl (by simp [hv])
    · exact .inr (by simp [hv])
  · have hn : i.toNat ≠ 8 := fun hn => h8 (BitVec.eq_of_toNat_eq hn)
    refine .inr ⟨if_neg fun h => h8 h.1, ?_⟩
    rw [if_neg hn]
    split_ifs <;> rfl

/-- An accepted CLRERR is the one write that does not record its refusal or keep ERR. -/
theorem memWrite_refusedOrKept_or_clrerr (i : RegIndex) (v : Word) (s : State) :
    (∃ t, memWrite i v s = .next t ∧ RefusedOrKept (expectedRefusal s i v) s t) ∨
    (s.busy = false ∧ i = 0#4 ∧ v = 0x9000#16 ∧ memWrite i v s = .next s.clearErr) := by
  cases hb : s.busy with
  | true => exact .inl ⟨_, memWrite_of_busy hb i v, .inl (by rw [expectedRefusal_of_busy hb])⟩
  | false =>
    by_cases hi : i = 0#4
    · subst hi
      rw [memWrite_cmd_of_idle hb rfl]
      cases hd : decode v with
      | error d =>
        exact .inl ⟨_, issueCommand_of_error hd s, .inl (by rw [expectedRefusal_of_error hb hd])⟩
      | ok c =>
        rw [issueCommand_of_ok hd, exec_of_idle hb, expectedRefusal_of_ok hb hd]
        by_cases hc : c = .clrerr
        · subst hc
          exact .inr ⟨rfl, rfl, (encode_of_decode hd).symm, rfl⟩
        · exact .inl ⟨_, rfl, execBody_refusedOrKept hc s⟩
    · have hr : regOf i ≠ .cmd := mt regOf_eq_cmd.mp fun hn => hi (BitVec.eq_of_toNat_eq hn)
      exact .inl ⟨_, memWrite_of_idle hb hr v, writeReg_refusedOrKept hb hi v⟩

/-- A refused write records its code and changes nothing else. -/
theorem memWrite_of_refused (he : expectedRefusal s i v ≠ .none) :
    memWrite i v s = .next (s.raise (expectedRefusal s i v)) := by
  obtain ⟨t, hw, h⟩ | ⟨hb, rfl, rfl, -⟩ := memWrite_refusedOrKept_or_clrerr i v s
  · rw [hw, h.eq_raise he]
  · exact absurd (expectedRefusal_of_ok hb (decode_encode .clrerr)) he

/-! ## What leaves ERR alone -/

theorem State.takeDraw_err (s : State) : s.takeDraw.err = s.err := by
  obtain ⟨-, he⟩ | ⟨-, he⟩ := s.takeDraw_cases <;> rw [he]
  · exact s.countDraw_err
  · obtain ⟨-, hv⟩ | ⟨-, hv⟩ := s.countDraw.voteBit_cases <;> rw [hv] <;> simp

theorem State.afterSample_err (s : State) : s.afterSample.err = s.err := by
  obtain ⟨-, he⟩ | ⟨-, he⟩ | ⟨-, -, he⟩ | ⟨-, he⟩ := s.afterSample_cases <;> rw [he] <;> simp

theorem State.stepDraw_err (s : State) : s.stepDraw.err = s.err := by
  unfold State.stepDraw
  split
  · exact s.takeDraw_err
  · rw [State.afterSample_err, State.takeDraw_err]

theorem State.stepDrawWord_err (s : State) : s.stepDrawWord.err = s.err := by
  unfold State.stepDrawWord
  cases s.runsrc <;> simp

theorem State.endRun_err (s : State) : s.endRun.err = s.err := by
  unfold State.endRun
  cases s.op with
  | idle => rfl
  | sample => rfl
  | mbrun => exact s.judge_err
  | selftest => cases s.phase <;> simp

theorem State.blockStep_err (s : State) : s.blockStep.err = s.err := by
  obtain ⟨-, he⟩ | ⟨-, -, he⟩ | ⟨-, -, he⟩ | ⟨-, -, -, he⟩ | ⟨-, -, -, he⟩ := s.blockStep_cases <;> rw [he]
  · exact s.stepDraw_err
  · exact s.endRun_err
  · exact s.stepDrawWord_err

theorem State.memRead_err (s : State) (i : RegIndex) : (s.memRead i).err = s.err := by
  rw [State.memRead_eq]

/-! ## One step -/

/-- What a step does to ERR: it keeps it, or a host write records its refusal and changes nothing else, or a reset
or an accepted CLRERR clears it. -/
theorem step_err_cases (ht : step s = .next t) :
    t.err = s.err ∨
    (∃ i v e, s.nextIs (.write i v) ∧ t = (s.withPending s.pending.tail).raise e) ∨
    (t.err = .none ∧ (s.nextIs .reset ∨ (s.nextIs (.write 0#4 0x9000#16) ∧ s.busy = false))) := by
  obtain ⟨-, rfl⟩ | ⟨i, v, hturn, hw⟩ | ⟨i, -, rfl⟩ | ⟨b, -, rfl⟩ | ⟨m, -, -, rfl⟩ | ⟨hreset, rfl⟩ := step_cases ht
  · exact .inl ((State.blockStep_err _).trans (s.withPending_err _))
  · obtain ⟨u, hu, h⟩ | ⟨hb, rfl, rfl, hclear⟩ :=
      memWrite_refusedOrKept_or_clrerr i v (s.withPending s.pending.tail)
    · cases hw.symm.trans hu
      obtain hrefused | ⟨-, hkept⟩ := h
      · exact .inr (.inl ⟨i, v, _, hturn, hrefused⟩)
      · exact .inl (hkept.trans (s.withPending_err _))
    · cases hw.symm.trans hclear
      exact .inr (.inr ⟨State.clearErr_err _, .inr ⟨hturn, hb⟩⟩)
  · exact .inl ((State.memRead_err _ i).trans (s.withPending_err _))
  · exact .inl ((State.capture_err _ b).trans (s.withPending_err _))
  · exact .inl (s.withPending_err s.pending.tail)
  · exact .inr (.inr ⟨State.resetBlock_err _, .inl hreset⟩)

theorem State.eq_with_err_of_eq_raise (h : t = s.raise e) : t = { s with err := t.err } := by
  subst h; rfl

end Sys2Proof.Machine

namespace Sys2Proof

open Machine

/-- Settles O13: a step that moves ERR is a host write recording its refusal, CLRERR or reset; recording does nothing
once ERR holds a code; and every write that meets a refusal records it. -/
theorem errKeepsFirstRefusal : Obligations.ErrKeepsFirstRefusal := by
  refine ⟨fun s t ht hs => ?sticky, fun s t ht hs htaken => ?taken, fun s i v rest he => ?refused,
    fun s rest hb => ?clrerr, fun s t rest ht => ?reset⟩
  case sticky =>
    obtain hkept | ⟨i, v, e, -, rfl⟩ | hcleared := step_err_cases ht
    · exact .inl hkept
    · exact .inl (by simp [hs])
    · exact .inr hcleared
  case taken =>
    obtain hkept | ⟨i, v, e, hturn, hrefused⟩ | ⟨hcleared, -⟩ := step_err_cases ht
    · exact absurd (hkept.trans hs) htaken
    · exact ⟨⟨i, v, hturn⟩, State.eq_with_err_of_eq_raise hrefused⟩
    · exact absurd hcleared htaken
  case refused =>
    rw [step_write]
    exact memWrite_of_refused (s := s.withPending rest) he
  case clrerr =>
    have hd : decode 0x9000#16 = .ok .clrerr := decode_encode .clrerr
    rw [step_writeCmd_of_idle hb, issueCommand_of_ok hd]
    exact exec_of_idle (s := s.withPending rest) hb .clrerr
  case reset =>
    cases ht
    exact State.resetBlock_err _

end Sys2Proof
end

section
/-! The commands: where a command word runs, what the acceptance of each blocking command does, what is refused, and
that no other command makes the block busy (30_encoding.md R63, R65; 60_exceptions.md R156). -/

namespace Sys2Proof.Machine

variable {s : State} {w : Word} {i : Instr}

/-! ## Where a command runs (30_encoding.md R65) -/

/-- E_BUSY comes before the decoder and before the command alike (log 16). -/
theorem memWrite_cmd_of_ok (hd : decode w = .ok i) (s : State) : memWrite 0#4 w s = exec i s := by
  cases hb : s.busy with
  | true => rw [memWrite_of_busy hb, exec_of_busy hb]
  | false => rw [memWrite_cmd_of_idle hb rfl, issueCommand_of_ok hd]

theorem step_writeCmd_of_ok (hd : decode w = .ok i) (s : State) (rest : List Event) :
    step (s.withPending (.write 0#4 w :: rest)) = exec i (s.withPending rest) := by
  rw [step_write, memWrite_cmd_of_ok hd]

theorem State.withPending_self {p : List Event} (hp : s.pending = p) : s.withPending p = s := by
  subst hp; rfl

theorem decode_of_decodeTableWord {nbits v : ℕ} (h : decodeTableWord nbits v = some i) :
    decode (tableWord nbits v) = .ok i := by
  unfold decodeTableWord at h
  cases hd : decode (tableWord nbits v) with
  | error e => rw [hd] at h; cases h
  | ok c => rw [hd] at h; cases h; rfl

/-! ## Acceptance, the block being idle -/

/-- The command's own check passes, so its refusal is not taken. -/
theorem exec_of_check {ok : Bool} {u : State} {e : ErrCode} (hb : s.busy = false) (hok : ok = true)
    (hbody : execBody i s = if ok then u else s.raise e) : exec i s = .next u := by
  rw [exec_of_idle hb, hbody, if_pos hok]

theorem exec_of_failed_check {ok : Bool} {u : State} {e : ErrCode} (hb : s.busy = false) (hok : ok ≠ true)
    (hbody : execBody i s = if ok then u else s.raise e) : exec i s = .next (s.raise e) := by
  rw [exec_of_idle hb, hbody, if_neg hok]

theorem exec_sample_of_legalCount {n : BitVec 5} (hb : s.busy = false) (hn : 1 ≤ n.toNat ∧ n.toNat ≤ 16) :
    exec (.sample n) s = .next (s.acceptSample n) :=
  exec_of_check hb (sampleOperandOk_eq_true.mpr hn) rfl

theorem exec_mbrun_of_fits (hb : s.busy = false) (hfit : s.mbbits.toNat * s.mbdraws.toNat ≤ 32767)
    (src : Source) : exec (.mbrun src) s = .next (s.acceptMbrun src) :=
  exec_of_check hb (State.runFits_eq_true.mpr hfit) rfl

theorem exec_selftest_of_fresh (hb : s.busy = false) (hp : s.phase = .idle) :
    exec .selftest s = .next s.acceptSelftest :=
  exec_of_check hb (State.selftestFresh_eq_true.mpr hp) rfl

/-! ## OP (30_encoding.md R63) -/

/-- A command refused by its own check leaves OP; accepted, it gives OP its own value. -/
theorem ite_raise_op {ok : Bool} {u : State} (o : BlockingOp) (hu : u.op = o) (e : ErrCode) :
    (if ok then u else s.raise e).op = s.op ∨ some o = some (if ok then u else s.raise e).op := by
  cases ok
  · exact .inl (s.raise_op e)
  · exact .inr (congrArg some hu.symm)

theorem execBody_op (i : Instr) (s : State) : (execBody i s).op = s.op ∨ opOf i = some (execBody i s).op := by
  cases i with
  | nop => exact .inl rfl
  | sample n => exact ite_raise_op .sample (s.acceptSample_op n) _
  | seed => exact .inl s.loadSeed_op
  | next => exact .inl s.advanceStream_op
  | mbclr => exact .inl s.clearTest_op
  | mbacc => exact .inl (by simp only [execBody]; split <;> simp)
  | mbjudge => exact .inl s.judge_op
  | mbrun src => exact ite_raise_op .mbrun (s.acceptMbrun_op src) _
  | selftest => exact ite_raise_op .selftest s.acceptSelftest_op _
  | clrerr => exact .inl s.clearErr_op

theorem opOf_ne_idle (i : Instr) : opOf i ≠ some .idle := by cases i <;> exact nofun

/-! ## The environment's other turns -/

theorem step_otherConsumer (s : State) (m : Timer) (rest : List Event) :
    step (s.withPending (.otherConsumer m :: rest)) = useTimer m (s.withPending rest) := rfl

end Sys2Proof.Machine

namespace Sys2Proof

open Machine

/-- Settles O1: decode inverts encode in both directions. -/
theorem decodeEncodeAgree : Obligations.DecodeEncodeAgree := fun _ _ => decode_eq_ok_iff

/-- Settles O3: the listed command words are encodings; the two others compute to their errors. -/
theorem writtenOutWordsDecode : Obligations.WrittenOutWordsDecode :=
  ⟨decode_encode .nop, decode_encode (.sample 1#5), decode_encode (.sample 16#5), decode_encode .seed,
    decode_encode .next, decode_encode .mbclr, decode_encode .mbacc, decode_encode .mbjudge,
    decode_encode (.mbrun .hardware), decode_encode (.mbrun .stream), decode_encode .selftest,
    decode_encode .clrerr, rfl, rfl⟩

/-- Settles O4: the write's own E_BUSY check is the command's, and the placed word is the next turn. -/
theorem stepRunsDecodedCommand : Obligations.StepRunsDecodedCommand := by
  refine ⟨fun s w i rest hp hd => ?_, fun s nbits w i hd => ?_⟩
  · rw [← State.withPending_self hp, step_writeCmd_of_ok hd]; rfl
  · exact step_writeCmd_of_ok (decode_of_decodeTableWord hd) s s.pending

/-- Settles O8: SAMPLE's check is 1 to 16. -/
theorem sampleAccepted : Obligations.SampleAccepted :=
  ⟨fun _ _ hb hlo hhi => exec_sample_of_legalCount hb ⟨hlo, hhi⟩,
    fun _ _ hb hn => exec_sample_of_illegalCount hb (by omega)⟩

/-- Settles O9: MBRUN's check is the run's length. -/
theorem mbrunAccepted : Obligations.MbrunAccepted :=
  ⟨fun _ src hb hfit => exec_mbrun_of_fits hb hfit src,
    fun _ _ hb hover => exec_of_failed_check hb (mt State.runFits_eq_true.mp hover.not_ge) rfl⟩

/-- Settles O10: SELFTEST's check is PHASE Idle. -/
theorem selftestAcceptedOnce : Obligations.SelftestAcceptedOnce :=
  ⟨fun _ hb hp => exec_selftest_of_fresh hb hp,
    fun _ hb hp => exec_of_failed_check hb (mt State.selftestFresh_eq_true.mp hp) rfl⟩

/-- Settles O11: every command is presented through the one E_BUSY check. -/
theorem busyRefusesEveryCommand : Obligations.BusyRefusesEveryCommand := fun i _ hb => exec_of_busy hb i

/-- Settles O12: a refusal keeps OP, and an idle block's command keeps it or is a blocking one that takes it. -/
theorem onlyBlockingCommandsSetBusy : Obligations.OnlyBlockingCommandsSetBusy := by
  intro i s t ht
  obtain ⟨-, rfl⟩ | ⟨hb, rfl⟩ := exec_eq_next.mp ht
  · exact .inl (s.raise_op _)
  · refine (execBody_op i s).imp_right fun hop => ⟨hb, hop, State.busy_eq_true.mpr fun hidle => ?_⟩
    exact opOf_ne_idle i (hidle ▸ hop)

/-- Settles O14: a write records the refusal R156 gives, ERR being 0 before; without one ERR is kept or cleared. -/
theorem refusalPriority : Obligations.RefusalPriority := by
  intro s i v rest hs
  have hexpected : expectedRefusal s i v = expectedRefusal (s.withPending rest) i v := rfl
  rw [step_write, hexpected]
  obtain ⟨t, hw, rfl | ⟨he, hkept⟩⟩ | ⟨hb, rfl, rfl, hw⟩ :=
    memWrite_refusedOrKept_or_clrerr i v (s.withPending rest)
  · exact ⟨_, hw, by simp [hs], fun _ => rfl⟩
  · have hnone : t.err = .none := hkept.trans hs
    exact ⟨t, hw, hnone.trans he.symm, fun ht => absurd hnone ht⟩
  · have he := expectedRefusal_of_ok hb (decode_encode .clrerr)
    exact ⟨_, hw, he.symm, fun ht => absurd (State.clearErr_err _) ht⟩

/-- Settles O20: the reset's turn is `resetBlock`, which keeps what is not the block's. -/
theorem resetEventKeepsTimer : Obligations.ResetEventKeepsTimer := fun _ _ => ⟨_, rfl, rfl⟩

/-- Settles O21: both configurations are constrained triples, CFG_B with the lower limit on BITS. -/
theorem configurationConstraints : Obligations.ConfigurationConstraints := by
  have hA := Config.cfgA_legal
  have hB := Config.cfgB_legal
  have hbits : Config.cfgB.bits ≤ 8 := (Config.constrained_bits 8 _ _ _ (by decide)).2
  exact ⟨⟨hA.bits.1, hA.bits.2, hA.length, Nat.le_of_lt_succ hA.bound⟩, hB.bits.1, hbits, hB.length,
    Nat.le_of_lt_succ hB.bound⟩

/-- Settles O22: the invariant holds at reset and, no SAMPLE being in progress, says nothing of the environment. -/
theorem resetMeetsInvariant : Obligations.ResetMeetsInvariant := fun tm c evs r n =>
  MachineInv.reset.setEnvironment rfl tm c evs r n

/-- Settles O23: one lemma per operation of the block, put together over the turns. -/
theorem stepKeepsInvariant : Obligations.StepKeepsInvariant := fun _ _ => MachineInv.of_step

/-- Settles O29: `otherConsumer` acts exactly while no SAMPLE is between its first and last step. -/
theorem otherConsumerKeptOut : Obligations.OtherConsumerKeptOut := by
  intro s m rest
  rw [step_otherConsumer]
  exact ⟨fun hs => if_pos hs, fun hs => if_neg (Bool.eq_false_iff.mp hs)⟩

end Sys2Proof
end

section
/-! The orbit of `next`: on integers it is an affine map with a multiplier that is 1 modulo 4 and an odd increment,
so `m` steps move a state by a number with exactly the powers of 2 of `m` (41_stream_extender.md R104). -/

namespace Sys2Proof.Machine

variable {k m n : ℕ} {s u : Word}

/-! ## The orbit on integers -/

/-- `next` without the reduction. -/
def lcgAffine (z : ℤ) : ℤ := 49381 * z + 8643

/-- The affine map multiplies `49380 * z + 8643`, which turns its iteration into a power. -/
theorem lcgAffine_iterate (m : ℕ) (z : ℤ) :
    49380 * lcgAffine^[m] z + 8643 = 49381 ^ m * (49380 * z + 8643) := by
  induction m with
  | zero => simp
  | succ m ih =>
    calc 49380 * lcgAffine^[m + 1] z + 8643
        = 49381 * (49380 * lcgAffine^[m] z + 8643) := by
          rw [Function.iterate_succ_apply', lcgAffine]; ring
      _ = 49381 ^ (m + 1) * (49380 * z + 8643) := by rw [ih]; ring

/-- Lifting the exponent: after `m` steps the state has moved by a number with the powers of 2 of `m`. -/
theorem emultiplicity_lcgAffine_iterate_sub (m : ℕ) (z : ℤ) :
    emultiplicity 2 (lcgAffine^[m] z - z) = emultiplicity (2 : ℤ) m := by
  have hodd : ¬ (2 : ℤ) ∣ 49380 * z + 8643 := by omega
  have hmoved : 49380 * (lcgAffine^[m] z - z) = (49381 ^ m - 1 ^ m) * (49380 * z + 8643) := by
    rw [one_pow, sub_one_mul, ← lcgAffine_iterate]; ring
  have hmult := congrArg (emultiplicity (2 : ℤ)) hmoved
  rw [emultiplicity_mul Int.prime_two, emultiplicity_mul Int.prime_two, emultiplicity_eq_zero.mpr hodd,
    Int.two_pow_sub_pow' m (by decide) (by decide), add_zero] at hmult
  have hfinite : FiniteMultiplicity (2 : ℤ) 49380 :=
    Int.finiteMultiplicity_iff.mpr (by decide)
  exact ENat.add_right_injective_of_ne_top (finiteMultiplicity_iff_emultiplicity_ne_top.mp hfinite) hmult

theorem two_pow_dvd_lcgAffine_iterate_sub_iff {z : ℤ} :
    2 ^ k ∣ lcgAffine^[m] z - z ↔ 2 ^ k ∣ m := by
  rw [pow_dvd_iff_le_emultiplicity, emultiplicity_lcgAffine_iterate_sub, ← pow_dvd_iff_le_emultiplicity]
  exact_mod_cast Iff.rfl

/-! ## The orbit on words -/

theorem lcgIterate_eq_iterate (m : ℕ) (s : Word) : lcgIterate m s = lcgNext^[m] s := by
  induction m generalizing s with
  | zero => rfl
  | succ m ih => exact ih (lcgNext s)

theorem lcgIterate_add (m n : ℕ) (s : Word) : lcgIterate (m + n) s = lcgIterate n (lcgIterate m s) := by
  simp only [lcgIterate_eq_iterate, Nat.add_comm m n, Function.iterate_add_apply]

theorem lcgNext_modEq (s : Word) : (lcgNext s).toNat ≡ lcgAffine s.toNat [ZMOD 65536] := by
  rw [lcgNext_toNat, Int.natCast_mod, Nat.cast_add, Nat.cast_mul]
  exact Int.mod_modEq _ _

theorem lcgIterate_modEq (m : ℕ) (s : Word) :
    (lcgIterate m s).toNat ≡ lcgAffine^[m] s.toNat [ZMOD 65536] := by
  induction m with
  | zero => rfl
  | succ m ih =>
    rw [lcgIterate_add, Function.iterate_succ_apply']
    calc ((lcgNext (lcgIterate m s)).toNat : ℤ)
        ≡ lcgAffine (lcgIterate m s).toNat [ZMOD 65536] := lcgNext_modEq _
      _ ≡ lcgAffine (lcgAffine^[m] s.toNat) [ZMOD 65536] := (ih.mul_left _).add_right _

/-- The low `k` bits come back after `m` steps exactly when `2 ^ k` divides `m`. -/
theorem lcgIterate_mod_two_pow_eq_iff (hk : k ≤ 16) :
    (lcgIterate m s).toNat % 2 ^ k = s.toNat % 2 ^ k ↔ 2 ^ k ∣ m := by
  have hword : (lcgIterate m s).toNat ≡ lcgAffine^[m] s.toNat [ZMOD (2 : ℤ) ^ k] :=
    (lcgIterate_modEq m s).of_dvd (pow_dvd_pow 2 hk)
  calc (lcgIterate m s).toNat % 2 ^ k = s.toNat % 2 ^ k
      ↔ ((lcgIterate m s).toNat : ℤ) ≡ s.toNat [ZMOD (2 : ℤ) ^ k] := by
        rw [← Nat.ModEq, ← Int.natCast_modEq_iff]; norm_cast
    _ ↔ lcgAffine^[m] s.toNat ≡ s.toNat [ZMOD (2 : ℤ) ^ k] :=
        ⟨hword.symm.trans, hword.trans⟩
    _ ↔ 2 ^ k ∣ m := by rw [Int.modEq_comm, Int.modEq_iff_dvd, two_pow_dvd_lcgAffine_iterate_sub_iff]

theorem lcgIterate_eq_self_iff : lcgIterate m s = s ↔ 65536 ∣ m := by
  have hwhole := lcgIterate_mod_two_pow_eq_iff (m := m) (s := s) (le_refl 16)
  rwa [Nat.mod_eq_of_lt (BitVec.isLt _), Nat.mod_eq_of_lt (BitVec.isLt _), BitVec.toNat_inj] at hwhole

/-! ## The whole orbit (41_stream_extender.md R104 (a) to (c)) -/

theorem lcgNext_iterate_period : lcgNext^[65536] = id :=
  funext fun s => (lcgIterate_eq_iterate 65536 s).symm.trans (lcgIterate_eq_self_iff.mpr dvd_rfl)

theorem lcgNext_injective : Function.Injective lcgNext := by
  have hid : Function.Injective lcgNext^[65536] := lcgNext_iterate_period ▸ Function.injective_id
  rw [Function.iterate_succ] at hid
  exact hid.of_comp

/-- Two counts below the period that reach the same word are the same. -/
theorem lcgIterate_inj_of_le (hmn : m ≤ n) (hn : n < 65536) (h : lcgIterate m s = lcgIterate n s) : m = n := by
  have hloop : lcgIterate (n - m) (lcgIterate m s) = lcgIterate m s := by
    rw [← lcgIterate_add, Nat.add_sub_cancel' hmn, h]
  have hdvd : 65536 ∣ n - m := lcgIterate_eq_self_iff.mp hloop
  omega

theorem lcgIterate_injective_below_period (s : Word) :
    Function.Injective fun j : Fin 65536 => lcgIterate j s := by
  intro i j hij
  obtain hle | hle := le_total i j
  · exact Fin.ext (lcgIterate_inj_of_le hle j.isLt hij)
  · exact Fin.ext (lcgIterate_inj_of_le hle i.isLt hij.symm).symm

/-- As many counts as words, and no word reached twice: every word is reached. -/
theorem lcgIterate_bijective_below_period (s : Word) :
    Function.Bijective fun j : Fin 65536 => lcgIterate j s := by
  have hcard : Fintype.card (Fin 65536) = Fintype.card Word :=
    Fintype.card_congr (BitVec.equivFin (m := 16)).toEquiv.symm
  exact (Fintype.bijective_iff_injective_and_card _).mpr ⟨lcgIterate_injective_below_period s, hcard⟩

/-! ## One bit of the orbit (41_stream_extender.md R104 (d)) -/

theorem mod_two_pow_succ_eq_iff {x y : ℕ} :
    x % 2 ^ (k + 1) = y % 2 ^ (k + 1) ↔ x % 2 ^ k = y % 2 ^ k ∧ x.testBit k = y.testBit k := by
  have hx : x % 2 ^ k < 2 ^ k := Nat.mod_lt _ (Nat.two_pow_pos k)
  have hy : y % 2 ^ k < 2 ^ k := Nat.mod_lt _ (Nat.two_pow_pos k)
  rw [Nat.mod_pow_succ, Nat.mod_pow_succ, Nat.testBit_eq_decide_div_mod_eq, Nat.testBit_eq_decide_div_mod_eq]
  obtain hxk | hxk := Nat.mod_two_eq_zero_or_one (x / 2 ^ k) <;>
    obtain hyk | hyk := Nat.mod_two_eq_zero_or_one (y / 2 ^ k) <;> simp [hxk, hyk] <;> omega

/-- Bit `k` along the orbit of `s`. -/
def lcgBit (k : ℕ) (s : Word) (m : ℕ) : Bool := (lcgIterate m s).getLsbD k

theorem lcgBit_periodic (hk : k < 16) (s : Word) : Function.Periodic (lcgBit k s) (2 ^ (k + 1)) := by
  intro m
  have hsame := (lcgIterate_mod_two_pow_eq_iff (s := lcgIterate m s) hk).mpr (dvd_refl (2 ^ (k + 1)))
  rw [← lcgIterate_add] at hsame
  exact (mod_two_pow_succ_eq_iff.mp hsame).2

/-- Half a period flips the bit: the bits below it are back, and with it they would be too early. -/
theorem lcgBit_add_half_ne (hk : k < 16) (s : Word) (m : ℕ) : lcgBit k s (m + 2 ^ k) ≠ lcgBit k s m := by
  intro hsame
  rw [lcgBit, lcgIterate_add] at hsame
  have hlow := (lcgIterate_mod_two_pow_eq_iff (s := lcgIterate m s) hk.le).mpr (dvd_refl (2 ^ k))
  have hback := mod_two_pow_succ_eq_iff.mpr ⟨hlow, hsame⟩
  have hdvd : 2 ^ (k + 1) ∣ 2 ^ k := (lcgIterate_mod_two_pow_eq_iff hk).mp hback
  exact absurd (Nat.pow_dvd_pow_iff_le_right'.mp hdvd) (by omega)

/-- A smaller period, times a power of 2, would be an odd multiple of half the period. -/
theorem not_lcgBit_periodic_of_lt {p : ℕ} (hk : k < 16) (hp : p ≠ 0) (hlt : p < 2 ^ (k + 1)) :
    ¬ Function.Periodic (lcgBit k s) p := by
  intro hper
  obtain ⟨j, q, ⟨r, rfl⟩, rfl⟩ := Nat.exists_eq_two_pow_mul_odd hp
  have hj : j ≤ k := by
    have hle : 2 ^ j ≤ 2 ^ j * (2 * r + 1) := Nat.le_mul_of_pos_right _ (by omega)
    exact Nat.lt_succ_iff.mp ((Nat.pow_lt_pow_iff_right (by decide)).mp (hle.trans_lt hlt))
  have hsplit : 2 ^ (k - j) * (2 ^ j * (2 * r + 1)) = 2 ^ k + r * 2 ^ (k + 1) := by
    rw [← mul_assoc, ← pow_add, Nat.sub_add_cancel hj]; ring
  have hodd : Function.Periodic (lcgBit k s) (2 ^ k + r * 2 ^ (k + 1)) := hsplit ▸ hper.nat_mul _
  apply lcgBit_add_half_ne hk s 0
  calc lcgBit k s (0 + 2 ^ k)
      = lcgBit k s (0 + 2 ^ k + r * 2 ^ (k + 1)) := ((lcgBit_periodic hk s).nat_mul r _).symm
    _ = lcgBit k s 0 := by rw [add_assoc]; exact hodd 0

end Sys2Proof.Machine

namespace Sys2Proof

open Machine

/-- Settles O35: the period makes `next` injective, on finitely many words; one step is no multiple of the period. -/
theorem lcgBijectionNoFixedPoint : Obligations.LcgBijectionNoFixedPoint := by
  refine ⟨Finite.injective_iff_bijective.mp lcgNext_injective, fun s hfixed => ?_⟩
  exact absurd (lcgIterate_eq_self_iff (m := 1).mp hfixed) (by decide)

/-- Settles O36: the orbit returns exactly at the multiples of 65536, so the counts below it reach 65536 words. -/
theorem lcgFullPeriod : Obligations.LcgFullPeriod := by
  refine ⟨fun s => lcgIterate_eq_self_iff.mpr dvd_rfl, fun s m hpos hlt hback => ?_, fun s u => ?_⟩
  · exact absurd (Nat.le_of_dvd hpos (lcgIterate_eq_self_iff.mp hback)) hlt.not_ge
  · obtain ⟨j, hj, hunique⟩ := (lcgIterate_bijective_below_period s).existsUnique u
    exact ⟨j, ⟨j.isLt, hj⟩, fun i ⟨hi, hu⟩ => congrArg Fin.val (hunique ⟨i, hi⟩ hu)⟩

/-- Settles O37: bit `k` has the period `2 ^ (k + 1)`, flips after half of it, and so has no smaller one. -/
theorem lcgBitPeriods : Obligations.LcgBitPeriods := by
  intro k s hk
  refine ⟨lcgBit_periodic hk s, fun p hpos hlt => ?_, fun m => ?_⟩
  · exact not_forall.mp (not_lcgBit_periodic_of_lt hk hpos.ne' hlt)
  · rw [lcgIterate_add]
    exact (lcgIterate_mod_two_pow_eq_iff hk.le).mpr dvd_rfl

end Sys2Proof
end

section
/-! The timer's prior configuration: every operation takes two machines that differ only in TCFG and SNAP to two such
machines, by the same branch (40_noise_sampler.md R93, log 27). And the hang: a block that waits for a capture stays
as it is while none comes (R94, 60_exceptions.md R153). -/

namespace Sys2Proof.Machine

variable {s u : State}

/-! ## Machines that differ only in TCFG and SNAP -/

/-- The same machine with these values in TCFG and SNAP. -/
def State.withConfig (s : State) (c d : TimerCfg) : State :=
  { s with timer := { s.timer with tcfg := c }, snap := d }

@[simp] theorem State.withConfig_op (s : State) (c d : TimerCfg) : (s.withConfig c d).op = s.op := rfl
@[simp] theorem State.withConfig_phase (s : State) (c d : TimerCfg) : (s.withConfig c d).phase = s.phase := rfl
@[simp] theorem State.withConfig_runsrc (s : State) (c d : TimerCfg) : (s.withConfig c d).runsrc = s.runsrc := rfl
@[simp] theorem State.withConfig_pending (s : State) (c d : TimerCfg) : (s.withConfig c d).pending = s.pending := rfl

/-- The two machines differ at most in TCFG and SNAP. -/
def AgreeButConfig (s u : State) : Prop := ∃ c d, u = s.withConfig c d

namespace AgreeButConfig

theorem ite {p : Prop} [Decidable p] {s' u' : State} (h : AgreeButConfig s u) (h' : AgreeButConfig s' u') :
    AgreeButConfig (if p then s else s') (if p then u else u') := by
  split
  · exact h
  · exact h'

/-! ## The block's turn -/

theorem voteBit (h : AgreeButConfig s u) : AgreeButConfig s.voteBit u.voteBit := by
  obtain ⟨c, d, rfl⟩ := h
  exact .ite ⟨c, d, rfl⟩ ⟨d, d, rfl⟩

theorem takeDraw (h : AgreeButConfig s u) : AgreeButConfig s.takeDraw u.takeDraw := by
  obtain ⟨c, d, rfl⟩ := h
  exact .ite ⟨c, d, rfl⟩ (.voteBit ⟨c, d, rfl⟩)

theorem afterSample (h : AgreeButConfig s u) : AgreeButConfig s.afterSample u.afterSample := by
  obtain ⟨c, d, rfl⟩ := h
  unfold State.afterSample
  rw [State.withConfig_op]
  cases s.op with
  | selftest => exact .ite ⟨c, d, rfl⟩ ⟨c, d, rfl⟩
  | _ => exact ⟨c, d, rfl⟩

theorem sampling_eq (h : AgreeButConfig s u) : u.sampling = s.sampling := by
  obtain ⟨c, d, rfl⟩ := h; rfl

theorem stepDraw (h : AgreeButConfig s u) : AgreeButConfig s.stepDraw u.stepDraw := by
  unfold State.stepDraw
  rw [h.takeDraw.sampling_eq]
  exact .ite h.takeDraw h.takeDraw.afterSample

theorem stepDrawWord (h : AgreeButConfig s u) : AgreeButConfig s.stepDrawWord u.stepDrawWord := by
  obtain ⟨c, d, rfl⟩ := h
  unfold State.stepDrawWord
  rw [State.withConfig_runsrc]
  cases s.runsrc with
  | hardware => exact ⟨Config.cfgCapture, c, rfl⟩
  | stream => exact ⟨c, d, rfl⟩

theorem endRun (h : AgreeButConfig s u) : AgreeButConfig s.endRun u.endRun := by
  obtain ⟨c, d, rfl⟩ := h
  unfold State.endRun
  rw [State.withConfig_op, State.withConfig_phase]
  cases s.op with
  | selftest => cases s.phase <;> exact ⟨c, d, rfl⟩
  | _ => exact ⟨c, d, rfl⟩

theorem blockStep (h : AgreeButConfig s u) : AgreeButConfig s.blockStep u.blockStep := by
  have hdraw := h.stepDraw
  have hend := h.endRun
  have hword := h.stepDrawWord
  obtain ⟨c, d, rfl⟩ := h
  exact .ite (.ite (.ite hdraw ⟨c, d, rfl⟩) (.ite hend hword)) ⟨c, d, rfl⟩

/-! ## Host accesses -/

theorem memRead (h : AgreeButConfig s u) (i : RegIndex) : AgreeButConfig (s.memRead i) (u.memRead i) := by
  obtain ⟨c, d, rfl⟩ := h
  have hread : (s.withConfig c d).readReg (regOf i) = s.readReg (regOf i) := by cases regOf i <;> rfl
  unfold State.memRead
  rw [hread]
  exact .ite ⟨c, d, rfl⟩ ⟨c, d, rfl⟩

theorem writeReg (h : AgreeButConfig s u) (r : Reg) (v : Word) :
    AgreeButConfig (s.writeReg r v) (u.writeReg r v) := by
  obtain ⟨c, d, rfl⟩ := h
  cases r with
  | mbbits => exact .ite ⟨c, d, rfl⟩ ⟨c, d, rfl⟩
  | _ => exact ⟨c, d, rfl⟩

/-- A command that begins a SAMPLE puts the prior configuration in SNAP; no other command touches either. -/
theorem after_execBody (h : AgreeButConfig s u) (i : Instr) : AgreeButConfig (execBody i s) (execBody i u) := by
  obtain ⟨c, d, rfl⟩ := h
  cases i with
  | sample n => exact .ite ⟨Config.cfgCapture, c, rfl⟩ ⟨c, d, rfl⟩
  | mbacc => exact .ite ⟨c, d, rfl⟩ ⟨c, d, rfl⟩
  | mbrun src => exact .ite ⟨c, d, rfl⟩ ⟨c, d, rfl⟩
  | selftest => exact .ite ⟨Config.cfgCapture, c, rfl⟩ ⟨c, d, rfl⟩
  | _ => exact ⟨c, d, rfl⟩

end AgreeButConfig

/-! ## Outcomes, steps and runs -/

theorem runs_succ_of_step {t : State} (h : step s = .next t) (k : ℕ) : runs (k + 1) s = runs k t := by
  have hcore : Sys2Proof.core.step s = .next t := h
  simp only [runs, Host.Core.run, hcore]
  rfl

theorem runs_succ_of_refused {r : Refusal} (h : step s = .refused r) (k : ℕ) : runs (k + 1) s = .refused r := by
  have hcore : Sys2Proof.core.step s = .refused r := h
  simp only [runs, Host.Core.run, hcore]
  rfl

/-- Both machines go on, differing at most in TCFG and SNAP, or both stop for the same reason. -/
inductive OutcomesAgree : Host.Outcome State Fault Refusal → Host.Outcome State Fault Refusal → Prop
  | next {s u : State} (h : AgreeButConfig s u) : OutcomesAgree (.next s) (.next u)
  | refused (r : Refusal) : OutcomesAgree (.refused r) (.refused r)

theorem OutcomesAgree.ite {p : Prop} [Decidable p] {a a' b b' : Host.Outcome State Fault Refusal}
    (h : OutcomesAgree a b) (h' : OutcomesAgree a' b') :
    OutcomesAgree (if p then a else a') (if p then b else b') := by
  split
  · exact h
  · exact h'

namespace AgreeButConfig

theorem after_exec (h : AgreeButConfig s u) (i : Instr) : OutcomesAgree (exec i s) (exec i u) := by
  have hbody := h.after_execBody i
  rw [exec_eq_present, exec_eq_present]
  obtain ⟨c, d, rfl⟩ := h
  exact .next (.ite ⟨c, d, rfl⟩ hbody)

theorem after_issueCommand (h : AgreeButConfig s u) (v : Word) :
    OutcomesAgree (issueCommand v s) (issueCommand v u) := by
  cases hd : decode v with
  | ok i =>
    rw [issueCommand_of_ok hd, issueCommand_of_ok hd]
    exact h.after_exec i
  | error e =>
    rw [issueCommand_of_error hd, issueCommand_of_error hd]
    obtain ⟨c, d, rfl⟩ := h
    exact .next ⟨c, d, rfl⟩

theorem after_memWrite (h : AgreeButConfig s u) (i : RegIndex) (v : Word) :
    OutcomesAgree (memWrite i v s) (memWrite i v u) := by
  have hissue := h.after_issueCommand v
  have hstore := h.writeReg (regOf i) v
  obtain ⟨c, d, rfl⟩ := h
  exact .ite (.next ⟨c, d, rfl⟩) (.ite hissue (.next hstore))

theorem after_deliver (h : AgreeButConfig s u) (e : Event) : OutcomesAgree (deliver e s) (deliver e u) := by
  cases e with
  | write i v => exact h.after_memWrite i v
  | read i => exact .next (h.memRead i)
  | block => exact .next h.blockStep
  | capture b => obtain ⟨c, d, rfl⟩ := h; exact .next ⟨c, d, rfl⟩
  | otherConsumer m =>
    obtain ⟨c, d, rfl⟩ := h
    exact .ite (.refused .timerOwned) (.next ⟨m.tcfg, d, rfl⟩)
  | reset => obtain ⟨c, d, rfl⟩ := h; exact .next ⟨c, State.reset.snap, rfl⟩

theorem after_step (h : AgreeButConfig s u) : OutcomesAgree (step s) (step u) := by
  have hblock := h.blockStep
  obtain ⟨c, d, rfl⟩ := h
  unfold step takeTurn
  rw [State.withConfig_pending]
  cases s.pending with
  | nil => exact .next hblock
  | cons e rest => exact after_deliver ⟨c, d, rfl⟩ e

theorem after_runs (h : AgreeButConfig s u) (k : ℕ) : OutcomesAgree (runs k s) (runs k u) := by
  induction k generalizing s u with
  | zero => exact .next h
  | succ k ih =>
    have hstep := h.after_step
    generalize hs : step s = o, hu : step u = o' at hstep
    cases hstep with
    | next h' =>
      rw [runs_succ_of_step hs, runs_succ_of_step hu]
      exact ih h'
    | refused r =>
      rw [runs_succ_of_refused hs, runs_succ_of_refused hu]
      exact .refused r

end AgreeButConfig

/-! ## The hang (60_exceptions.md R153) -/

theorem State.hung_eq_true : s.hung = true ↔ s.sampling = true ∧ s.timer.tflag = false := by
  simp [State.hung, State.waiting, State.captured]

theorem State.blockStep_of_hung (h : s.hung = true) : s.blockStep = s := by
  obtain ⟨hs, hflag⟩ := State.hung_eq_true.mp h
  obtain ⟨hop, -⟩ := State.sampling_eq_true.mp hs
  simp [State.blockStep, State.busy_eq_true.mpr hop, hs, State.captured, hflag]

/-- The host's turn moves ERR or the model's own fields of a waiting block, the block's turn nothing. -/
theorem deliver_of_hung {e : Event} (h : s.hung = true) (he : e.leavesHang = true) :
    ∃ c r n, deliver e s = .next { s with err := c, rdata := r, freeCount := n } := by
  obtain ⟨hs, -⟩ := State.hung_eq_true.mp h
  obtain ⟨hop, -⟩ := State.sampling_eq_true.mp hs
  cases e with
  | write i v => exact ⟨_, _, _, memWrite_of_busy (State.busy_eq_true.mpr hop) i v⟩
  | read i => exact ⟨_, _, _, congrArg _ (s.memRead_eq i)⟩
  | block => exact ⟨_, _, _, congrArg _ (State.blockStep_of_hung h)⟩
  | capture b => cases he
  | otherConsumer m => cases he
  | reset => cases he

theorem step_of_hung (h : s.hung = true) (hall : s.pending.all Event.leavesHang = true) :
    ∃ c r n, step s = .next { s with pending := s.pending.tail, err := c, rdata := r, freeCount := n } := by
  unfold step takeTurn
  cases hp : s.pending with
  | nil => exact ⟨_, _, _, congrArg _ ((State.blockStep_of_hung h).trans (State.withPending_self hp).symm)⟩
  | cons e rest =>
    rw [hp, List.all_cons, Bool.and_eq_true] at hall
    exact deliver_of_hung (s := s.withPending rest) h hall.1

theorem runs_of_hung (k : ℕ) (h : s.hung = true) (hall : s.pending.all Event.leavesHang = true) :
    ∃ c r n, runs k s = .next { s with pending := s.pending.drop k, err := c, rdata := r, freeCount := n } := by
  induction k generalizing s with
  | zero => exact ⟨s.err, s.rdata, s.freeCount, rfl⟩
  | succ k ih =>
    obtain ⟨c, r, n, hstep⟩ := step_of_hung h hall
    have hrest : s.pending.tail.all Event.leavesHang = true :=
      List.all_eq_true.mpr fun e he => List.all_eq_true.mp hall e (List.mem_of_mem_tail he)
    obtain ⟨c', r', n', hruns⟩ :=
      ih (s := { s with pending := s.pending.tail, err := c, rdata := r, freeCount := n }) h hrest
    refine ⟨c', r', n', ?_⟩
    rw [runs_succ_of_step hstep, ← List.drop_tail]
    exact hruns

end Sys2Proof.Machine

namespace Sys2Proof

open Machine

/-- Settles O30: a simulation, step by step, between machines that differ only in TCFG and SNAP. -/
theorem priorConfigurationDoesNotMatter : Obligations.PriorConfigurationDoesNotMatter := by
  intro k s c d
  have hagree : OutcomesAgree (runs k s) (runs k (s.withConfig c d)) := AgreeButConfig.after_runs ⟨c, d, rfl⟩ k
  refine ⟨fun t ht => ?next, fun r hr => ?refused⟩
  case next =>
    rw [ht] at hagree
    generalize hu : runs k (s.withConfig c d) = o at hagree
    obtain ⟨c', d', rfl⟩ | _ := hagree
    exact ⟨c', d', hu⟩
  case refused =>
    rw [hr] at hagree
    generalize hu : runs k (s.withConfig c d) = o at hagree
    cases hagree
    exact hu

/-- Settles O31: by induction on the steps, none of which moves more than ERR and the model's own fields. -/
theorem hangLastsWithoutCapture : Obligations.HangLastsWithoutCapture := by
  intro k s h hall
  obtain ⟨c, r, n, hruns⟩ := runs_of_hung k h hall
  exact ⟨_, hruns, h, rfl⟩

end Sys2Proof
end

section
/-! What a step can write: the block's turn, a host write and the environment's turns each as the operation they come
to, and from that every writer of DATA, LSTATE, PHASE, the timer and the self-test's records. -/

namespace Sys2Proof.Machine

variable {s t : State} {i : RegIndex} {v : Word}

/-! ## The last vote of a SAMPLE and what follows it -/

@[simp] theorem State.lastVote_data_eq_sr (s : State) : s.lastVote.data = s.lastVote.sr := by simp [State.lastVote]

@[simp] theorem State.lastVote_tcfg (s : State) : s.lastVote.timer.tcfg = s.snap := by simp [State.lastVote]

@[simp] theorem State.enterHardwareTest_sampling (s : State) : s.enterHardwareTest.sampling = s.sampling := by
  simp [State.sampling, State.busy]

@[simp] theorem State.endDraw_sampling (s : State) : s.endDraw.sampling = s.sampling := by
  simp [State.sampling, State.busy]

/-! ## The block's turn as an operation -/

/-- A draw, in every state: it only counts, or it votes a bit, or its vote is the SAMPLE's last. -/
theorem State.stepDraw_cases_of_sampling (hs : s.sampling = true) :
    s.stepDraw = s.countDraw ∨
    (s.countDraw.shiftBit.sampling = true ∧ s.stepDraw = s.countDraw.shiftBit) ∨
    (s.lastVote.sampling = false ∧ s.stepDraw = s.lastVote.afterSample) := by
  obtain ⟨hop, -⟩ := State.sampling_eq_true.mp hs
  unfold State.stepDraw
  obtain ⟨-, he⟩ | ⟨-, he⟩ := s.takeDraw_cases <;> rw [he]
  · exact .inl (if_pos hs)
  · obtain ⟨hmore, hv⟩ | ⟨hlast, hv⟩ := s.countDraw.voteBit_cases <;> rw [hv]
    · have hmore' : s.countDraw.shiftBit.sampling = true := State.sampling_eq_true.mpr ⟨hop, hmore⟩
      exact .inr (.inl ⟨hmore', if_pos hmore'⟩)
    · have hlast' : s.lastVote.sampling = false := State.sampling_eq_false.mpr (.inr hlast)
      exact .inr (.inr ⟨hlast', if_neg (Bool.eq_false_iff.mp hlast')⟩)

/-- The block's turn, by the operation it comes to. -/
inductive BlockMove (s : State) : State → Prop
  | stay : BlockMove s s
  | count (hs : s.sampling = true) : BlockMove s s.countDraw
  | vote (hs : s.sampling = true) (hmore : s.countDraw.shiftBit.sampling = true) :
      BlockMove s s.countDraw.shiftBit
  | endSample (hs : s.sampling = true) : BlockMove s { s.lastVote with op := .idle }
  | endSeed (hs : s.sampling = true) (hlast : s.lastVote.sampling = false) (hop : s.op = .selftest)
      (hp : s.phase = .samplingSeed) : BlockMove s s.lastVote.enterHardwareTest
  | endWord (hs : s.sampling = true) (hlast : s.lastVote.sampling = false) : BlockMove s s.lastVote.endDraw
  | beginWord (hop : s.op ≠ .idle) (hs : s.sampling = false) : BlockMove s (s.beginSample 16#5)
  | streamWord (hop : s.op ≠ .idle) (hs : s.sampling = false) (hsrc : s.runsrc = .stream)
      (hc : s.runcnt.toNat ≠ 0) : BlockMove s s.advanceStream.endDraw
  | endRun (hs : s.sampling = false) : BlockMove s { s.judge with op := .idle }
  | enterStreamTest (hop : s.op = .selftest) (hp : s.phase = .testingHardwareSource) :
      BlockMove s s.enterStreamTest
  | enterDone (hs : s.sampling = false) (hop : s.op = .selftest) (hp : s.phase = .testingStream) :
      BlockMove s s.enterDone

theorem State.lastVote_afterSample_move (hs : s.sampling = true) (hlast : s.lastVote.sampling = false) :
    BlockMove s s.lastVote.afterSample := by
  obtain ⟨hop, -⟩ | ⟨-, he⟩ | ⟨hop, hp, he⟩ | ⟨-, he⟩ := s.lastVote.afterSample_cases
  · rw [State.lastVote_op] at hop; exact absurd hop (State.sampling_eq_true.mp hs).1
  · rw [he]; exact .endSample hs
  · rw [State.lastVote_op] at hop; rw [State.lastVote_phase] at hp; rw [he]; exact .endSeed hs hlast hop hp
  · rw [he]; exact .endWord hs hlast

theorem State.stepDraw_move (hs : s.sampling = true) : BlockMove s s.stepDraw := by
  obtain he | ⟨hmore, he⟩ | ⟨hlast, he⟩ := State.stepDraw_cases_of_sampling hs <;> rw [he]
  · exact .count hs
  · exact .vote hs hmore
  · exact State.lastVote_afterSample_move hs hlast

theorem State.stepDrawWord_move (hop : s.op ≠ .idle) (hs : s.sampling = false) (hc : s.runcnt.toNat ≠ 0) :
    BlockMove s s.stepDrawWord := by
  unfold State.stepDrawWord
  cases hsrc : s.runsrc with
  | hardware => exact .beginWord hop hs
  | stream => exact .streamWord hop hs hsrc hc

theorem State.endRun_move (hs : s.sampling = false) : BlockMove s s.endRun := by
  unfold State.endRun
  cases hop : s.op with
  | idle => exact .stay
  | sample => exact .stay
  | mbrun => exact .endRun hs
  | selftest =>
    cases hp : s.phase with
    | testingHardwareSource => exact .enterStreamTest hop hp
    | testingStream => exact .enterDone hs hop hp
    | _ => exact .stay

theorem State.blockStep_move (s : State) : BlockMove s s.blockStep := by
  obtain ⟨-, he⟩ | ⟨-, -, he⟩ | ⟨hs, -, he⟩ | ⟨-, hs, -, he⟩ | ⟨hop, hs, hc, he⟩ := s.blockStep_cases <;> rw [he]
  · exact .stay
  · exact .stay
  · exact State.stepDraw_move hs
  · exact State.endRun_move hs
  · exact State.stepDrawWord_move hop hs hc

/-! ## A host write as an operation -/

/-- A host write of `v` to index `i`, by the operation it comes to. -/
inductive WriteMove (s : State) (i : RegIndex) (v : Word) : State → Prop
  | refused (e : ErrCode) : WriteMove s i v (s.raise e)
  | ignored : WriteMove s i v s
  | data (hb : s.busy = false) (hi : i = 3#4) : WriteMove s i v { s with data := v }
  | setTest (hb : s.busy = false) (b d m : Word) :
      WriteMove s i v { s with mbbits := b, mbdraws := d, mbbound := m }
  | sample (hb : s.busy = false) (n : BitVec 5) (hn : 1 ≤ n.toNat) : WriteMove s i v (s.acceptSample n)
  | seed (hb : s.busy = false) (hi : i = 0#4) (hv : v = 0x2000#16) : WriteMove s i v s.loadSeed
  | next (hb : s.busy = false) (hi : i = 0#4) (hv : v = 0x3000#16) : WriteMove s i v s.advanceStream
  | mbclr (hb : s.busy = false) : WriteMove s i v s.clearTest
  | mbacc (hb : s.busy = false) : WriteMove s i v s.accumulate
  | mbjudge (hb : s.busy = false) : WriteMove s i v s.judge
  | mbrun (hb : s.busy = false) (src : Source) : WriteMove s i v (s.acceptMbrun src)
  | selftest (hb : s.busy = false) (hi : i = 0#4) (hv : v = 0x8000#16) (hp : s.phase = .idle) :
      WriteMove s i v s.acceptSelftest
  | clrerr (hb : s.busy = false) : WriteMove s i v s.clearErr

namespace WriteMove

theorem ite_raise {ok : Bool} {e : ErrCode} (h : ok = true → WriteMove s i v t) :
    WriteMove s i v (if ok then t else s.raise e) := by
  split
  · next hok => exact h hok
  · exact .refused e

theorem of_command {c : Instr} (hb : s.busy = false) (hi : i = 0#4) (hv : v = encode c) :
    WriteMove s i v (execBody c s) := by
  cases c with
  | nop => exact .ignored
  | sample n => exact .ite_raise fun hok => .sample hb n (sampleOperandOk_eq_true.mp hok).1
  | seed => exact .seed hb hi hv
  | next => exact .next hb hi hv
  | mbclr => exact .mbclr hb
  | mbacc => exact .ite_raise fun _ => .mbacc hb
  | mbjudge => exact .mbjudge hb
  | mbrun src => exact .ite_raise fun _ => .mbrun hb src
  | selftest => exact .ite_raise fun hok => .selftest hb hi hv (State.selftestFresh_eq_true.mp hok)
  | clrerr => exact .clrerr hb

theorem of_writeReg (hb : s.busy = false) : WriteMove s i v (s.writeReg (regOf i) v) := by
  rw [State.writeReg_regOf]
  split_ifs with h3
  · exact .data hb (BitVec.eq_of_toNat_eq h3)
  · exact .refused .operand
  · exact .setTest hb v s.mbdraws s.mbbound
  · exact .setTest hb s.mbbits v s.mbbound
  · exact .setTest hb s.mbbits s.mbdraws v
  · exact .ignored

theorem of_memWrite (h : memWrite i v s = .next t) : WriteMove s i v t := by
  obtain ⟨-, he⟩ | ⟨hb, hr, c, hd, he⟩ | ⟨-, -, -, he⟩ | ⟨hb, -, he⟩ := memWrite_cases i v s <;> rw [he] at h
  · cases h; exact .refused .busy
  · rw [exec_of_idle hb] at h; cases h
    exact .of_command hb (BitVec.eq_of_toNat_eq (regOf_eq_cmd.mp hr)) (encode_of_decode hd).symm
  · cases h; exact .refused .illegal
  · cases h; exact .of_writeReg hb

end WriteMove

/-! ## One step as an operation -/

/-- The machine in its next turn, which is no longer pending. -/
def State.turnTaken (s : State) : State := s.withPending s.pending.tail

/-- What one step can do: the block's operation, a host write's, a read or a turn of the timer's, or a reset. -/
theorem step_move (h : step s = .next t) :
    (s.blockTurn ∧ BlockMove s.turnTaken t) ∨
    (∃ i v, s.nextIs (.write i v) ∧ WriteMove s.turnTaken i v t) ∨
    (∃ m r n, (s.sampling = true → m.tcfg = s.timer.tcfg) ∧
      t = { s.turnTaken with timer := m, rdata := r, freeCount := n }) ∨
    (s.nextIs .reset ∧ t = s.turnTaken.resetBlock) := by
  obtain ⟨hturn, rfl⟩ | ⟨i, v, hturn, hw⟩ | ⟨i, -, rfl⟩ | ⟨b, -, rfl⟩ | ⟨m, -, hs, rfl⟩ | ⟨hturn, rfl⟩ := step_cases h
  · exact .inl ⟨hturn.imp_left List.head?_eq_none_iff.mpr, State.blockStep_move _⟩
  · exact .inr (.inl ⟨i, v, hturn, .of_memWrite hw⟩)
  · exact .inr (.inr (.inl ⟨s.timer, _, _, fun _ => rfl, State.memRead_eq _ i⟩))
  · exact .inr (.inr (.inl ⟨{ s.timer with tflag := true, tlsb := b }, s.rdata, s.freeCount, fun _ => rfl, rfl⟩))
  · exact .inr (.inr (.inl ⟨m, s.rdata, s.freeCount, fun ht => absurd ht (Bool.eq_false_iff.mp hs), rfl⟩))
  · exact .inr (.inr (.inr ⟨hturn, rfl⟩))

theorem State.sampling_eq_false_of_busy (hb : s.busy = false) : s.sampling = false :=
  State.sampling_eq_false.mpr (.inl (State.busy_eq_false.mp hb))

/-! ## DATA (10_state.md R11) -/

theorem BlockMove.data (h : BlockMove s t) :
    t.data = s.data ∨
    (s.sampling = true ∧ t.sampling = false ∧ t.data = t.sr) ∨
    (s.op ≠ .idle ∧ s.sampling = false ∧ s.runsrc = .stream ∧ s.runcnt.toNat ≠ 0 ∧
      t.data = lcgNext s.lstate) := by
  cases h with
  | endSample hs => exact .inr (.inl ⟨hs, rfl, rfl⟩)
  | endSeed hs hlast => exact .inr (.inl ⟨hs, by simpa using hlast, by simp⟩)
  | endWord hs hlast => exact .inr (.inl ⟨hs, by simpa using hlast, by simp⟩)
  | streamWord hop hs hsrc hc => exact .inr (.inr ⟨hop, hs, hsrc, hc, rfl⟩)
  | _ => exact .inl (by simp)

theorem WriteMove.data_cases (h : WriteMove s i v t) :
    t.data = s.data ∨
    (s.busy = false ∧ i = 3#4 ∧ t.data = v) ∨
    (s.busy = false ∧ i = 0#4 ∧ v = 0x3000#16 ∧ t.data = lcgNext s.lstate) := by
  cases h with
  | data hb hi => exact .inr (.inl ⟨hb, hi, rfl⟩)
  | next hb hi hv => exact .inr (.inr ⟨hb, hi, hv, rfl⟩)
  | _ => exact .inl (by simp)

/-- The writers of DATA; but for the end of a SAMPLE none acts between a SAMPLE's first and last step. -/
theorem step_data (h : step s = .next t) :
    t.data = s.data ∨
    (∃ v, s.nextIs (.write 3#4 v) ∧ s.busy = false ∧ t.data = v) ∨
    (s.nextIs (.write 0#4 0x3000#16) ∧ s.busy = false ∧ t.data = lcgNext s.lstate) ∨
    (s.blockTurn ∧ s.sampling = true ∧ t.sampling = false ∧ t.data = t.sr) ∨
    (s.blockTurn ∧ s.op ≠ .idle ∧ s.sampling = false ∧ s.runsrc = .stream ∧ s.runcnt.toNat ≠ 0 ∧
      t.data = lcgNext s.lstate) ∨
    (s.nextIs .reset ∧ t.sampling = false ∧ t.data = 0#16) := by
  obtain ⟨hturn, hm⟩ | ⟨i, v, hturn, hm⟩ | ⟨m, r, n, -, rfl⟩ | ⟨hturn, rfl⟩ := step_move h
  · obtain hkept | hend | hword := hm.data
    · exact .inl hkept
    · exact .inr (.inr (.inr (.inl ⟨hturn, hend⟩)))
    · exact .inr (.inr (.inr (.inr (.inl ⟨hturn, hword⟩))))
  · obtain hkept | ⟨hb, rfl, hv⟩ | ⟨hb, rfl, rfl, hv⟩ := hm.data_cases
    · exact .inl hkept
    · exact .inr (.inl ⟨v, hturn, hb, hv⟩)
    · exact .inr (.inr (.inl ⟨hturn, hb, hv⟩))
  · exact .inl rfl
  · exact .inr (.inr (.inr (.inr (.inr ⟨hturn, rfl, rfl⟩))))

theorem step_data_of_sampling (h : step s = .next t) (hs : s.sampling = true) (ht : t.sampling = true) :
    t.data = s.data := by
  have hidle : s.busy ≠ false := fun hb => absurd (State.sampling_eq_false_of_busy hb) (by simp [hs])
  obtain hkept | ⟨v, -, hb, -⟩ | ⟨-, hb, -⟩ | ⟨-, -, hend, -⟩ | ⟨-, -, hout, -⟩ | ⟨-, hend, -⟩ := step_data h
  · exact hkept
  · exact absurd hb hidle
  · exact absurd hb hidle
  · exact absurd hend (by simp [ht])
  · exact absurd hout (by simp [hs])
  · exact absurd hend (by simp [ht])

/-! ## LSTATE (10_state.md R12) -/

theorem BlockMove.lstate (h : BlockMove s t) :
    t.lstate = s.lstate ∨
    (s.op ≠ .idle ∧ s.sampling = false ∧ s.runsrc = .stream ∧ s.runcnt.toNat ≠ 0 ∧
      t.lstate = lcgNext s.lstate) ∨
    (s.op = .selftest ∧ s.phase = .samplingSeed ∧ s.sampling = true ∧
      t.phase = .testingHardwareSource ∧ t.lstate = t.data) := by
  cases h with
  | endSeed hs _ hop hp => exact .inr (.inr ⟨hop, hp, hs, rfl, rfl⟩)
  | streamWord hop hs hsrc hc => exact .inr (.inl ⟨hop, hs, hsrc, hc, rfl⟩)
  | _ => exact .inl (by simp [State.lastVote])

theorem WriteMove.lstate (h : WriteMove s i v t) :
    t.lstate = s.lstate ∨
    (s.busy = false ∧ i = 0#4 ∧ v = 0x2000#16 ∧ t.lstate = s.data) ∨
    (s.busy = false ∧ i = 0#4 ∧ v = 0x3000#16 ∧ t.lstate = lcgNext s.lstate) := by
  cases h with
  | seed hb hi hv => exact .inr (.inl ⟨hb, hi, hv, rfl⟩)
  | next hb hi hv => exact .inr (.inr ⟨hb, hi, hv, rfl⟩)
  | _ => exact .inl (by simp)

/-! ## PHASE (10_state.md R14) -/

theorem BlockMove.phase (h : BlockMove s t) :
    t.phase = s.phase ∨
    (s.op = .selftest ∧
      ((s.phase = .samplingSeed ∧ t.phase = .testingHardwareSource) ∨
       (s.phase = .testingHardwareSource ∧ t.phase = .testingStream) ∨
       (s.phase = .testingStream ∧ t.phase = .done ∧ t.op = .idle))) := by
  cases h with
  | endSeed _ _ hop hp => exact .inr ⟨hop, .inl ⟨hp, rfl⟩⟩
  | enterStreamTest hop hp => exact .inr ⟨hop, .inr (.inl ⟨hp, rfl⟩)⟩
  | enterDone _ hop hp => exact .inr ⟨hop, .inr (.inr ⟨hp, rfl, rfl⟩)⟩
  | _ => exact .inl (by simp)

theorem WriteMove.phase (h : WriteMove s i v t) :
    t.phase = s.phase ∨
    (i = 0#4 ∧ v = 0x8000#16 ∧ s.phase = .idle ∧ t.phase = .samplingSeed ∧ t.op = .selftest) := by
  cases h with
  | selftest _ hi hv hp => exact .inr ⟨hi, hv, hp, rfl, rfl⟩
  | _ => exact .inl (by simp)

/-! ## The self-test's records (10_state.md R28, R29) -/

theorem decide_verdictOf_eq_fail (sum bound : Word) :
    decide (verdictOf sum bound = .fail) = decide (bound.toNat < sum.toInt.natAbs) := by
  by_cases h : bound.toNat < sum.toInt.natAbs <;> simp [verdictOf, h]

theorem BlockMove.recordA (h : BlockMove s t) :
    (t.suma = s.suma ∧ t.fa = s.fa) ∨
    (s.op = .selftest ∧ s.phase = .testingHardwareSource ∧ t.phase = .testingStream ∧ t.suma = s.sum ∧
      t.fa = decide (s.mbbound.toNat < s.sum.toInt.natAbs)) := by
  cases h with
  | enterStreamTest hop hp =>
    exact .inr ⟨hop, hp, rfl, rfl, by rw [State.enterStreamTest_fa, decide_verdictOf_eq_fail]⟩
  | _ => exact .inl (by simp [State.lastVote])

theorem BlockMove.recordB (h : BlockMove s t) :
    (t.sumb = s.sumb ∧ t.fb = s.fb) ∨
    (s.op = .selftest ∧ s.phase = .testingStream ∧ t.phase = .done ∧ t.sumb = s.sum ∧
      t.fb = decide (s.mbbound.toNat < s.sum.toInt.natAbs)) := by
  cases h with
  | enterDone _ hop hp =>
    exact .inr ⟨hop, hp, rfl, rfl, by rw [State.enterDone_fb, decide_verdictOf_eq_fail]⟩
  | _ => exact .inl (by simp [State.lastVote])

theorem WriteMove.records (h : WriteMove s i v t) :
    (t.suma = s.suma ∧ t.fa = s.fa) ∧ t.sumb = s.sumb ∧ t.fb = s.fb := by
  cases h <;> simp

/-! ## The timer (40_noise_sampler.md R92, 70_reset_and_hazards.md R174) -/

/-- What a step other than reset does to the timer's configuration: it leaves it and stays inside or outside of a
SAMPLE, or begins a SAMPLE, or ends one. -/
def TimerMove (s t : State) : Prop :=
  (t.sampling = s.sampling ∧ (s.sampling = true → t.snap = s.snap ∧ t.timer.tcfg = s.timer.tcfg)) ∨
  (s.sampling = false ∧ t.snap = s.timer.tcfg ∧ t.timer = { s.timer with tcfg := Config.cfgCapture }) ∨
  (s.sampling = true ∧ t.sampling = false ∧ t.timer.tcfg = s.snap)

namespace TimerMove

theorem kept (hs : t.sampling = s.sampling) (hsnap : t.snap = s.snap) (hcfg : t.timer.tcfg = s.timer.tcfg) :
    TimerMove s t := .inl ⟨hs, fun _ => ⟨hsnap, hcfg⟩⟩

theorem begun (hs : s.sampling = false) (hsnap : t.snap = s.timer.tcfg)
    (htimer : t.timer = { s.timer with tcfg := Config.cfgCapture }) : TimerMove s t := .inr (.inl ⟨hs, hsnap, htimer⟩)

theorem ended (hs : s.sampling = true) (ht : t.sampling = false) (hcfg : t.timer.tcfg = s.snap) :
    TimerMove s t := .inr (.inr ⟨hs, ht, hcfg⟩)

end TimerMove

theorem BlockMove.timer (h : BlockMove s t) : TimerMove s t := by
  cases h with
  | vote hs hmore => exact .kept (hmore.trans hs.symm) rfl rfl
  | endSample hs => exact .ended hs rfl rfl
  | endSeed hs hlast => exact .ended hs (by simpa using hlast) (by simp)
  | endWord hs hlast => exact .ended hs (by simpa using hlast) (by simp)
  | beginWord _ hs => exact .begun hs rfl rfl
  | endRun hs => exact .kept hs.symm rfl rfl
  | enterDone hs => exact .kept hs.symm rfl rfl
  | _ => exact .kept (by simp [State.sampling, State.busy]) (by simp) (by simp)

theorem WriteMove.timer (h : WriteMove s i v t) (hidle : s.op = .idle → s.nreq.toNat ≤ s.biti.toNat) :
    TimerMove s t := by
  cases h with
  | sample hb n hn => exact .begun (State.sampling_eq_false_of_busy hb) rfl rfl
  | mbrun hb src =>
    have hnone : (s.acceptMbrun src).sampling = false :=
      State.sampling_eq_false.mpr (.inr (hidle (State.busy_eq_false.mp hb)))
    exact .kept (hnone.trans (State.sampling_eq_false_of_busy hb).symm) rfl rfl
  | selftest hb => exact .begun (State.sampling_eq_false_of_busy hb) rfl rfl
  | _ => exact .kept (by simp [State.sampling, State.busy]) (by simp) (by simp)

theorem MachineInv.step_timer (hinv : MachineInv s) (h : step s = .next t) :
    TimerMove s t ∨ (s.nextIs .reset ∧ t.sampling = false) := by
  obtain ⟨-, hm⟩ | ⟨i, v, -, hm⟩ | ⟨m, r, n, hcfg, rfl⟩ | ⟨hturn, rfl⟩ := step_move h
  · exact .inl hm.timer
  · exact .inl (hm.timer hinv.idleHasNone)
  · exact .inl (.inl ⟨rfl, fun hs => ⟨rfl, hcfg hs⟩⟩)
  · exact .inr ⟨hturn, rfl⟩

/-! ## One draw, in a state of the invariant (40_noise_sampler.md R88, R90) -/

theorem State.afterSample_data (s : State) : s.afterSample.data = s.data := by
  obtain ⟨-, he⟩ | ⟨-, he⟩ | ⟨-, -, he⟩ | ⟨-, he⟩ := s.afterSample_cases <;> rw [he] <;> rfl

theorem State.afterSample_timer (s : State) : s.afterSample.timer = s.timer := by
  obtain ⟨-, he⟩ | ⟨-, he⟩ | ⟨-, -, he⟩ | ⟨-, he⟩ := s.afterSample_cases <;> rw [he] <;> rfl

theorem State.afterSample_sampling (hs : s.sampling = false) : s.afterSample.sampling = false := by
  obtain ⟨-, he⟩ | ⟨-, he⟩ | ⟨-, -, he⟩ | ⟨-, he⟩ := s.afterSample_cases <;> rw [he]
  · exact hs
  · rfl
  · exact hs
  · exact hs

theorem shiftVote_eq_or (sr : Word) (k : ℕ) :
    shiftVote sr k = (sr >>> 1) ||| (if 3 ≤ k then 0x8000#16 else 0#16) := by
  unfold shiftVote Config.thresh Config.orMask
  split
  · rfl
  · rw [BitVec.or_zero]

namespace MachineInv

theorem countDraw_ones_toNat (h : MachineInv s) :
    s.countDraw.ones.toNat = s.ones.toNat + s.timer.tlsb.toNat := by
  have hones := h.drawsCounted
  have hbit : (BitVec.setWidth 3 (BitVec.ofBool s.timer.tlsb)).toNat = s.timer.tlsb.toNat := by
    cases s.timer.tlsb <;> rfl
  have hle := Bool.toNat_le s.timer.tlsb
  rw [State.countDraw_ones, BitVec.toNat_add_of_lt (by omega), hbit]

theorem lastVote_data (h : MachineInv s) :
    s.lastVote.data =
      (s.sr >>> 1) ||| (if 3 ≤ s.ones.toNat + s.timer.tlsb.toNat then 0x8000#16 else 0#16) := by
  rw [State.lastVote_eq, shiftVote_eq_or, h.countDraw_ones_toNat]

/-- The draw by its place 5 * BITI + DRAWJ in the SAMPLE: it is counted there, or it is the last. -/
theorem stepDraw_counts (h : MachineInv s) (hs : s.sampling = true) :
    (5 * s.biti.toNat + s.drawj.toNat + 1 < 5 * s.nreq.toNat →
      5 * s.stepDraw.biti.toNat + s.stepDraw.drawj.toNat = 5 * s.biti.toNat + s.drawj.toNat + 1 ∧
      s.stepDraw = { s with
        timer := { s.timer with tflag := false }
        sr := s.stepDraw.sr, ones := s.stepDraw.ones, drawj := s.stepDraw.drawj, biti := s.stepDraw.biti }) ∧
    (5 * s.biti.toNat + s.drawj.toNat + 1 = 5 * s.nreq.toNat →
      s.stepDraw.sampling = false ∧ s.stepDraw.timer.tcfg = s.snap ∧
      s.stepDraw.data =
        (s.sr >>> 1) ||| (if 3 ≤ s.ones.toNat + s.timer.tlsb.toNat then 0x8000#16 else 0#16)) := by
  obtain ⟨-, hlt⟩ := State.sampling_eq_true.mp hs
  have hcount := h.countDraw_drawj_toNat
  have hshift := h.shiftBit_biti_toNat
  obtain ⟨hj, he⟩ | ⟨hj, hi, he⟩ | ⟨hj, hi, he⟩ := h.stepDraw_cases hs <;> rw [he]
  · exact ⟨fun _ => ⟨by rw [hcount, State.countDraw_biti]; omega, rfl⟩, fun _ => by omega⟩
  · exact ⟨fun _ => ⟨by rw [hshift, State.shiftBit_drawj, hj]; simp; omega, rfl⟩, fun _ => by omega⟩
  · refine ⟨fun _ => by omega, fun _ => ⟨State.afterSample_sampling (h.lastVote_sampling hi), ?_, ?_⟩⟩
    · rw [State.afterSample_timer, State.lastVote_eq]
    · rw [State.afterSample_data, h.lastVote_data]

theorem blockStep_data_of_ends (h : MachineInv s) (hs : s.sampling = true)
    (ht : s.blockStep.sampling = false) : s.blockStep.data = s.lastVote.data := by
  have hbusy := (State.sampling_eq_true.mp hs).1
  obtain ⟨hop, -⟩ | ⟨-, -, he⟩ | ⟨-, -, he⟩ | ⟨-, hout, -⟩ | ⟨-, hout, -⟩ := s.blockStep_cases
  · exact absurd hop hbusy
  · rw [he, hs] at ht; cases ht
  · rw [he] at ht ⊢
    obtain ⟨-, hd⟩ | ⟨-, hi, hd⟩ | ⟨-, -, hd⟩ := h.stepDraw_cases hs
    · rw [hd] at ht; exact absurd hs (Bool.eq_false_iff.mp ht)
    · have hmore : s.countDraw.shiftBit.sampling = true :=
        State.sampling_eq_true.mpr ⟨hbusy, by rwa [h.shiftBit_biti_toNat]⟩
      rw [hd, hmore] at ht; cases ht
    · rw [hd, State.afterSample_data]
  · rw [hs] at hout; cases hout
  · rw [hs] at hout; cases hout

end MachineInv

theorem State.blockStep_of_captured (hs : s.sampling = true) (hf : s.timer.tflag = true) :
    s.blockStep = s.stepDraw := by
  have hb := State.busy_eq_true.mpr (State.sampling_eq_true.mp hs).1
  simp [State.blockStep, hb, hs, State.captured, hf]

theorem step_block (s : State) (rest : List Event) :
    step (s.withPending (.block :: rest)) = .next (s.withPending rest).blockStep := rfl

theorem step_of_blockTurn (h : s.blockTurn) : step s = .next s.turnTaken.blockStep := by
  unfold step takeTurn
  cases hp : s.pending with
  | nil => rw [State.turnTaken, State.withPending_self (by rw [hp]; rfl)]
  | cons e rest =>
    have he : e = .block := by simpa [State.blockTurn, hp] using h
    rw [State.turnTaken, hp, he]; rfl

end Sys2Proof.Machine

namespace Sys2Proof

open Machine

/-- Settles O26: without a capture the block polls; with one its draw counts, or votes, or is the last, by the place
5 * BITI + DRAWJ the draw has in the SAMPLE. -/
theorem eachDrawUsesOneCapture : Obligations.EachDrawUsesOneCapture := by
  intro s rest hinv hs
  rw [step_block]
  refine ⟨fun hf => ?_, fun hf => ⟨_, rfl, ?_⟩⟩
  · rw [State.blockStep_of_hung (s := s.withPending rest) (State.hung_eq_true.mpr ⟨hs, hf⟩)]
  · rw [State.blockStep_of_captured (s := s.withPending rest) hs hf]
    exact (hinv.withPending rest).stepDraw_counts hs

/-- Settles O28: a step keeps the timer's configuration, begins a SAMPLE or ends one, in each case as stated. -/
theorem timerOwnedDuringSample : Obligations.TimerOwnedDuringSample := by
  intro s t hinv ht
  obtain (⟨hsame, hkept⟩ | ⟨hout, hbegun⟩ | ⟨hin, hend, hcfg⟩) | ⟨hreset, hend⟩ := hinv.step_timer ht
  · exact ⟨fun hs hs' => by simp [hsame, hs] at hs', fun hs _ => hkept hs,
      fun hs hs' => by simp [hsame, hs] at hs'⟩
  · exact ⟨fun _ _ => hbegun, fun hs => by simp [hout] at hs, fun hs => by simp [hout] at hs⟩
  · exact ⟨fun hs => by simp [hin] at hs, fun _ hs' => by simp [hend] at hs', fun _ _ _ => hcfg⟩
  · exact ⟨fun _ hs' => by simp [hend] at hs', fun _ hs' => by simp [hend] at hs',
      fun _ _ hr => absurd hreset hr⟩

/-- Settles O32: every operation a step can come to writes DATA as listed or not at all. -/
theorem dataWriters : Obligations.DataWriters := by
  refine ⟨fun s t ht hs hs' => step_data_of_sampling ht hs hs', fun s t ht => ?_,
    fun s t hinv ht hturn hs hs' => ?_⟩
  · obtain hkept | hwrite | hnext | hend | ⟨hturn, hop, -, hsrc, hc, hv⟩ | ⟨hturn, -, hv⟩ := step_data ht
    · exact .inl hkept
    · exact .inr (.inl hwrite)
    · exact .inr (.inr (.inl hnext))
    · exact .inr (.inr (.inr (.inl hend)))
    · exact .inr (.inr (.inr (.inr (.inl
        ⟨hturn, State.busy_eq_true.mpr hop, hsrc, Nat.pos_of_ne_zero hc, hv⟩))))
    · exact .inr (.inr (.inr (.inr (.inr ⟨hturn, hv⟩))))
  · cases (step_of_blockTurn hturn).symm.trans ht
    have h := hinv.withPending s.pending.tail
    exact (h.blockStep_data_of_ends hs hs').trans h.lastVote_data

/-- Settles O38: every operation a step can come to writes LSTATE as listed or not at all. -/
theorem lstateWriters : Obligations.LstateWriters := by
  intro s t ht
  obtain ⟨hturn, hm⟩ | ⟨i, v, hturn, hm⟩ | ⟨m, r, n, -, rfl⟩ | ⟨hturn, rfl⟩ := step_move ht
  · obtain hkept | ⟨hop, hs, hsrc, hc, hv⟩ | ⟨hop, hp, hs, hp', hv⟩ := hm.lstate
    · exact .inl hkept
    · exact .inr (.inr (.inr (.inl
        ⟨hturn, State.busy_eq_true.mpr hop, hs, hsrc, Nat.pos_of_ne_zero hc, hv⟩)))
    · exact .inr (.inr (.inr (.inr (.inl ⟨hturn, hop, hp, hs, hp', hv⟩))))
  · obtain hkept | ⟨hb, rfl, rfl, hv⟩ | ⟨hb, rfl, rfl, hv⟩ := hm.lstate
    · exact .inl hkept
    · exact .inr (.inl ⟨hturn, hb, hv⟩)
    · exact .inr (.inr (.inl ⟨hturn, hb, hv⟩))
  · exact .inl rfl
  · exact .inr (.inr (.inr (.inr (.inr ⟨hturn, rfl⟩))))

/-- Settles O44: of the operations a step can come to, SELFTEST's acceptance and the block's three transitions
inside it move PHASE. -/
theorem phaseMovesInOrder : Obligations.PhaseMovesInOrder := by
  intro s t ht hr
  obtain ⟨hturn, hm⟩ | ⟨i, v, hturn, hm⟩ | ⟨m, r, n, -, rfl⟩ | ⟨hturn, -⟩ := step_move ht
  · exact hm.phase.imp_right fun ⟨hop, hmoved⟩ => .inr ⟨hop, hturn, hmoved⟩
  · obtain hkept | ⟨rfl, rfl, hp, hp', hop⟩ := hm.phase
    · exact .inl hkept
    · exact .inr (.inl ⟨hp, hp', hturn, hop⟩)
  · exact .inl rfl
  · exact absurd hturn hr

/-- Settles O46: of the operations a step can come to, only the two ends of a test inside SELFTEST record. -/
theorem selftestRecords : Obligations.SelftestRecords := by
  intro s t ht hr
  obtain ⟨hturn, hm⟩ | ⟨i, v, -, hm⟩ | ⟨m, r, n, -, rfl⟩ | ⟨hturn, -⟩ := step_move ht
  · exact ⟨hm.recordA.imp_right fun ⟨hop, hA⟩ => ⟨hop, hturn, hA⟩,
      hm.recordB.imp_right fun ⟨hop, hB⟩ => ⟨hop, hturn, hB⟩⟩
  · obtain ⟨hA, hB⟩ := hm.records
    exact ⟨.inl hA, .inl hB⟩
  · exact ⟨.inl ⟨rfl, rfl⟩, .inl ⟨rfl, rfl⟩⟩
  · exact absurd hturn hr

/-- Settles O47: the writers of PHASE, of the records and of the published result all act inside SELFTEST or accept
one. -/
theorem otherCommandsLeaveSelftestResult : Obligations.OtherCommandsLeaveSelftestResult := by
  intro s t ht hr hop hnew
  have hphase : t.phase = s.phase := by
    obtain hkept | ⟨-, -, hturn, -⟩ | ⟨hself, -⟩ := phaseMovesInOrder s t ht hr
    · exact hkept
    · exact absurd hturn hnew
    · exact absurd hself hop
  obtain ⟨hA, hB⟩ := selftestRecords s t ht hr
  obtain ⟨hsuma, hfa⟩ := hA.resolve_right fun h => hop h.1
  obtain ⟨hsumb, hfb⟩ := hB.resolve_right fun h => hop h.1
  have hpub := (step_published_or_enterDone ht hr).resolve_right fun h => hop h.1
  obtain ⟨hstatus, hdone⟩ := State.published_eq_iff.mp hpub
  exact ⟨hphase, hdone, hstatus, hfa, hfb, hsuma, hsumb⟩

end Sys2Proof
end

section
/-! A whole SAMPLE: runs put together turn by turn, the word of the votes bit by bit, and the SAMPLE as five draws a
bit (40_noise_sampler.md R88 to R92). -/

namespace Sys2Proof.Machine

variable {s t : State} {draws ds : List Bool} {rest : List Event} {n : BitVec 5} {k : ℕ}

/-! ## Runs made of runs -/

theorem runs_one_of_step (h : step s = .next t) : runs 1 s = .next t := runs_succ_of_step h 0

theorem runs_add_of_runs {j : ℕ} (h : runs j s = .next t) (k : ℕ) : runs (j + k) s = runs k t := by
  induction j generalizing s with
  | zero => cases h; rw [Nat.zero_add]
  | succ j ih =>
    rw [Nat.add_right_comm]
    cases hs : step s with
    | next u =>
      rw [runs_succ_of_step hs] at h ⊢
      exact ih h
    | fault f => exact nomatch f
    | refused r => rw [runs_succ_of_refused hs] at h; cases h

/-! ## The word of the votes (40_noise_sampler.md R90, R91) -/

/-- SR after `k` votes. -/
def votedWord (draws : List Bool) (k : ℕ) : Word :=
  match k with
  | 0 => 0#16
  | k + 1 => shiftVote (votedWord draws k) (onesAmong draws k)

theorem shiftVote_getLsbD (sr : Word) (ones : ℕ) {j : ℕ} (hj : j < 16) :
    (shiftVote sr ones).getLsbD j = if j = 15 then decide (3 ≤ ones) else sr.getLsbD (1 + j) := by
  have hmask : (0x8000#16).getLsbD j = decide (j = 15) := by
    interval_cases j <;> rfl
  rw [shiftVote_eq_or, BitVec.getLsbD_or, BitVec.getLsbD_ushiftRight, apply_ite (BitVec.getLsbD · j), hmask,
    BitVec.getLsbD_zero]
  by_cases h15 : j = 15 <;> by_cases hones : 3 ≤ ones <;> simp [h15, hones]

/-- After `k` votes they stand in the top `k` bits, the first one lowest. -/
theorem votedWord_getLsbD (draws : List Bool) (hk : k ≤ 16) {j : ℕ} (hj : j < 16) :
    (votedWord draws k).getLsbD j = (decide (16 ≤ j + k) && majority draws (j + k - 16)) := by
  induction k generalizing j with
  | zero => simp [votedWord]; omega
  | succ k ih =>
    rw [votedWord, shiftVote_getLsbD _ _ hj]
    split
    · next h15 =>
      have hlast : j + (k + 1) - 16 = k := by omega
      have hin : 16 ≤ j + (k + 1) := by omega
      rw [hlast, decide_eq_true hin, Bool.true_and, majority]
    · next h15 =>
      rw [ih (by omega) (by omega), show 1 + j + k = j + (k + 1) by omega]

theorem votedNumber_lt (draws : List Bool) (k : ℕ) : votedNumber draws k < 2 ^ k := by
  induction k with
  | zero => simp [votedNumber]
  | succ k ih => rw [votedNumber, pow_succ]; split <;> omega

theorem votedNumber_testBit (draws : List Bool) {i : ℕ} (hi : i < k) :
    (votedNumber draws k).testBit i = majority draws i := by
  induction k with
  | zero => omega
  | succ k ih =>
    rw [votedNumber, Nat.add_comm]
    obtain hlt | rfl := Nat.lt_succ_iff_lt_or_eq.mp hi
    · split
      · rw [Nat.testBit_two_pow_add_gt hlt, ih hlt]
      · rw [Nat.zero_add, ih hlt]
    · have hlow : (votedNumber draws i).testBit i = false := Nat.testBit_lt_two_pow (votedNumber_lt draws i)
      split
      · next hmaj => rw [Nat.testBit_two_pow_add_eq, hlow, hmaj]; rfl
      · next hmaj => rw [Nat.zero_add, hlow]; exact (Bool.eq_false_iff.mpr hmaj).symm

theorem votedWord_sixteen (draws : List Bool) : votedWord draws 16 = sampledWord draws := by
  refine BitVec.eq_of_getLsbD_eq fun i hi => ?_
  rw [votedWord_getLsbD draws le_rfl hi, sampledWord, BitVec.getLsbD_ofNat, votedNumber_testBit draws hi]
  simp [hi]

/-! ## The block's turn inside a SAMPLE -/

theorem drawTurns_append (ds es : List Bool) : drawTurns (ds ++ es) = drawTurns ds ++ drawTurns es := by
  induction ds with
  | nil => rfl
  | cons b ds ih => rw [List.cons_append, drawTurns, ih]; rfl

/-- From `s` a SAMPLE of `n` bits has begun: `k` bits are voted into `w`, and of `j` draws for the next bit `c` read
1. The timer is as the last draw left it. -/
def State.midSample (s : State) (n : BitVec 5) (w : Word) (k c j : ℕ) (m : Timer) : State :=
  { s with
    snap := s.timer.tcfg, timer := m, sr := w, nreq := n
    biti := BitVec.ofNat 5 k, ones := BitVec.ofNat 3 c, drawj := BitVec.ofNat 3 j }

/-- From `s` a SAMPLE of `n` bits has ended with the word `w`: the timer has its configuration back. -/
def State.finishSample (s : State) (n : BitVec 5) (w : Word) : State :=
  { s with
    data := w, snap := s.timer.tcfg, sr := w, nreq := n, biti := n, ones := 0#3, drawj := 0#3
    timer := { tcfg := s.timer.tcfg, tflag := Config.freeFlag s.freeCount, tlsb := Config.freeLsb s.freeCount }
    freeCount := s.freeCount + 1 }

section MidSample

variable {w : Word} {c j : ℕ} {m : Timer} {b : Bool}

theorem State.beginSample_eq_midSample (s : State) (n : BitVec 5) :
    s.beginSample n = s.midSample n 0#16 0 0 0 { s.timer with tcfg := Config.cfgCapture } :=
  s.beginSample_eq n

theorem State.midSample_sampling (hop : s.op ≠ .idle) (hk : k < n.toNat) :
    (s.midSample n w k c j m).sampling = true := by
  have hn := n.isLt
  exact State.sampling_eq_true.mpr ⟨hop, (Nat.mod_le k 32).trans_lt hk⟩

theorem ofNat_add_ofBool (c : ℕ) (b : Bool) :
    BitVec.ofNat 3 c + BitVec.setWidth 3 (BitVec.ofBool b) = BitVec.ofNat 3 (c + b.toNat) := by
  cases b with
  | false => simp
  | true => exact (BitVec.ofNat_add c 1).symm

theorem State.midSample_countDraw : (s.midSample n w k c j m).countDraw =
    s.midSample n w k (c + m.tlsb.toNat) (j + 1) { m with tflag := false } := by
  rw [State.midSample, State.midSample, ← ofNat_add_ofBool, BitVec.ofNat_add j 1]
  rfl

theorem State.midSample_shiftBit (hc : c ≤ 5) : (s.midSample n w k c j m).shiftBit =
    s.midSample n (shiftVote w c) (k + 1) 0 0 m := by
  have hones : (BitVec.ofNat 3 c).toNat = c := Nat.mod_eq_of_lt (by omega)
  rw [State.midSample, State.midSample, BitVec.ofNat_add k 1, State.shiftBit, hones]

theorem State.midSample_endSample : (s.midSample n w n.toNat 0 0 m).endSample = s.finishSample n w := by
  rw [State.midSample, BitVec.ofNat_toNat, BitVec.setWidth_eq]
  rfl

/-- The two turns of one draw: the capture and the block's step that reads it. -/
theorem runs_midSample_draw (hop : s.op ≠ .idle) (hk : k < n.toNat) (b : Bool) (rest : List Event) :
    runs 2 ((s.midSample n w k c j m).withPending (.capture b :: .block :: rest)) =
      .next ((s.withPending rest).midSample n w k c j { m with tflag := true, tlsb := b }).stepDraw := by
  have hs : ((s.withPending rest).midSample n w k c j { m with tflag := true, tlsb := b }).sampling = true :=
    State.midSample_sampling hop hk
  have hblock : step ((s.midSample n w k c j { m with tflag := true, tlsb := b }).withPending (.block :: rest)) =
      .next ((s.withPending rest).midSample n w k c j { m with tflag := true, tlsb := b }).stepDraw :=
    (step_block _ rest).trans (congrArg _ (State.blockStep_of_captured hs rfl))
  exact (runs_succ_of_step (step_capture _ b (.block :: rest)) 1).trans (runs_one_of_step hblock)

/-- A draw that only counts. -/
theorem State.midSample_stepDraw_of_few (hop : s.op ≠ .idle) (hk : k < n.toNat) (hj : j < 4) :
    (s.midSample n w k c j m).stepDraw =
      s.midSample n w k (c + m.tlsb.toNat) (j + 1) { m with tflag := false } := by
  have hfew : (BitVec.ofNat 3 (j + 1)).toNat < 5 := (Nat.mod_le _ _).trans_lt (by omega)
  have htake : (s.midSample n w k c j m).takeDraw =
      s.midSample n w k (c + m.tlsb.toNat) (j + 1) { m with tflag := false } := by
    rw [State.takeDraw, State.midSample_countDraw]
    exact if_pos hfew
  rw [State.stepDraw, htake, if_pos (State.midSample_sampling hop hk)]

/-- The fifth draw votes. -/
theorem State.midSample_takeDraw_of_fifth (hc : c ≤ 4) :
    (s.midSample n w k c 4 m).takeDraw =
      if (BitVec.ofNat 5 (k + 1)).toNat < n.toNat then
        s.midSample n (shiftVote w (c + m.tlsb.toNat)) (k + 1) 0 0 { m with tflag := false }
      else (s.midSample n (shiftVote w (c + m.tlsb.toNat)) (k + 1) 0 0 { m with tflag := false }).endSample := by
  have hle := Bool.toNat_le m.tlsb
  rw [State.takeDraw, State.midSample_countDraw, State.voteBit, State.midSample_shiftBit (by omega)]
  have hfive : ¬ (BitVec.ofNat 3 (4 + 1)).toNat < 5 := by decide
  exact if_neg hfive

theorem State.midSample_stepDraw_of_vote (hop : s.op ≠ .idle) (hk : k + 1 < n.toNat) (hc : c ≤ 4) :
    (s.midSample n w k c 4 m).stepDraw =
      s.midSample n (shiftVote w (c + m.tlsb.toNat)) (k + 1) 0 0 { m with tflag := false } := by
  have hmore : (BitVec.ofNat 5 (k + 1)).toNat < n.toNat := (Nat.mod_le _ _).trans_lt hk
  rw [State.stepDraw, State.midSample_takeDraw_of_fifth hc, if_pos hmore, if_pos (State.midSample_sampling hop hk)]

theorem State.midSample_stepDraw_of_last (hk : k + 1 = n.toNat) (hc : c ≤ 4) :
    (s.midSample n w k c 4 m).stepDraw = (s.finishSample n (shiftVote w (c + m.tlsb.toNat))).afterSample := by
  have hlast : ¬ (BitVec.ofNat 5 (k + 1)).toNat < n.toNat := by
    rw [hk, BitVec.ofNat_toNat, BitVec.setWidth_eq]; exact lt_irrefl _
  have hout : (s.finishSample n (shiftVote w (c + m.tlsb.toNat))).sampling ≠ true :=
    Bool.eq_false_iff.mp (State.sampling_eq_false.mpr (.inr le_rfl))
  rw [State.stepDraw, State.midSample_takeDraw_of_fifth hc, if_neg hlast, hk, State.midSample_endSample,
    if_neg hout]

/-! ## The draws of one bit, and of all bits (40_noise_sampler.md R89, R90) -/

/-- The first draws of a bit: each is counted. -/
theorem runs_counted_draws (hop : s.op ≠ .idle) (hk : k < n.toNat) (hj : j + ds.length ≤ 4) (m : Timer)
    (rest : List Event) :
    ∃ m', runs (2 * ds.length) ((s.midSample n w k c j m).withPending (drawTurns ds ++ rest)) =
      .next ((s.midSample n w k (c + ds.count true) (j + ds.length) m').withPending rest) := by
  induction ds generalizing c j m with
  | nil => exact ⟨m, rfl⟩
  | cons b ds ih =>
    rw [List.length_cons] at hj
    have hdraw := runs_midSample_draw (w := w) (c := c) (j := j) (m := m) hop hk b (drawTurns ds ++ rest)
    rw [State.midSample_stepDraw_of_few (s := s.withPending (drawTurns ds ++ rest)) hop hk (by omega)] at hdraw
    obtain ⟨m', hruns⟩ := ih (c := c + b.toNat) (j := j + 1) (by omega) { m with tflag := false, tlsb := b }
    refine ⟨m', ?_⟩
    have hcount : c + (b :: ds).count true = c + b.toNat + ds.count true := by
      cases b with
      | false => simp
      | true => simp; omega
    rw [List.length_cons, Nat.mul_succ, Nat.add_comm, hcount, Nat.add_comm ds.length 1, ← Nat.add_assoc]
    exact (runs_add_of_runs hdraw _).trans hruns

/-- Five draws, up to the block's step that votes with the fifth. -/
theorem runs_five_draws (hop : s.op ≠ .idle) (hk : k < n.toNat) (hds : ds.length = 5) (m : Timer)
    (rest : List Event) :
    ∃ c m', runs 10 ((s.midSample n w k 0 0 m).withPending (drawTurns ds ++ rest)) =
        .next ((s.withPending rest).midSample n w k c 4 m').stepDraw ∧ c ≤ 4 ∧
      c + m'.tlsb.toNat = ds.count true := by
  have hne : ds ≠ [] := fun h => by simp [h] at hds
  have hlen : ds.dropLast.length = 4 := by rw [List.length_dropLast, hds]
  have hsplit : drawTurns ds ++ rest =
      drawTurns ds.dropLast ++ (.capture (ds.getLast hne) :: .block :: rest) := by
    conv_lhs => rw [← List.dropLast_append_getLast hne, drawTurns_append, List.append_assoc]
    rfl
  obtain ⟨m', hfour⟩ := runs_counted_draws (w := w) (c := 0) (j := 0) (ds := ds.dropLast) hop hk (by omega) m
    (.capture (ds.getLast hne) :: .block :: rest)
  rw [hlen, ← hsplit] at hfour
  have hfifth := runs_midSample_draw (w := w) (c := 0 + ds.dropLast.count true) (j := 0 + 4) (m := m') hop hk
    (ds.getLast hne) rest
  refine ⟨_, _, (runs_add_of_runs hfour 2).trans hfifth, ?_, ?_⟩
  · have hle : ds.dropLast.count true ≤ ds.dropLast.length := List.count_le_length
    omega
  · conv_rhs => rw [← List.dropLast_append_getLast hne, List.count_append]
    cases ds.getLast hne <;> simp

theorem runs_voted_bit (hop : s.op ≠ .idle) (hk : k + 1 < n.toNat) (hds : ds.length = 5) (m : Timer)
    (rest : List Event) :
    ∃ m', runs 10 ((s.midSample n w k 0 0 m).withPending (drawTurns ds ++ rest)) =
      .next ((s.midSample n (shiftVote w (ds.count true)) (k + 1) 0 0 m').withPending rest) := by
  obtain ⟨c, m', hruns, hc, hcount⟩ := runs_five_draws (n := n) (w := w) (k := k) hop (by omega) hds m rest
  rw [State.midSample_stepDraw_of_vote (s := s.withPending rest) hop hk hc, hcount] at hruns
  exact ⟨_, hruns⟩

theorem runs_last_bit (hop : s.op ≠ .idle) (hk : k + 1 = n.toNat) (hds : ds.length = 5) (m : Timer)
    (rest : List Event) :
    runs 10 ((s.midSample n w k 0 0 m).withPending (drawTurns ds ++ rest)) =
      .next ((s.withPending rest).finishSample n (shiftVote w (ds.count true))).afterSample := by
  obtain ⟨c, m', hruns, hc, hcount⟩ := runs_five_draws (n := n) (w := w) (k := k) hop (by omega) hds m rest
  rwa [State.midSample_stepDraw_of_last hk hc, hcount] at hruns

end MidSample

/-- The turns of the draws from bit `k` on are those of bit `k` and those of the bits after it. -/
theorem drawTurns_drop (draws : List Bool) (k : ℕ) (rest : List Event) :
    drawTurns (draws.drop (5 * k)) ++ rest =
      drawTurns ((draws.drop (5 * k)).take 5) ++ (drawTurns (draws.drop (5 * (k + 1))) ++ rest) := by
  rw [← List.append_assoc, ← drawTurns_append, Nat.mul_succ, ← List.drop_drop, List.take_append_drop]

theorem length_take_drop {total : ℕ} (hlen : draws.length = 5 * total) (hk : k < total) :
    ((draws.drop (5 * k)).take 5).length = 5 := by
  rw [List.length_take, List.length_drop]; omega

theorem runs_bits (hop : s.op ≠ .idle) (hlen : draws.length = 5 * n.toNat) (hk : k < n.toNat)
    (rest : List Event) :
    ∃ m, runs (10 * k) ((s.beginSample n).withPending (drawTurns draws ++ rest)) =
      .next ((s.midSample n (votedWord draws k) k 0 0 m).withPending (drawTurns (draws.drop (5 * k)) ++ rest)) := by
  induction k with
  | zero => exact ⟨_, by rw [State.beginSample_eq_midSample]; rfl⟩
  | succ k ih =>
    obtain ⟨m, hbits⟩ := ih (by omega)
    rw [drawTurns_drop] at hbits
    obtain ⟨m', hbit⟩ := runs_voted_bit (w := votedWord draws k) hop hk (length_take_drop (k := k) hlen (by omega)) m
      (drawTurns (draws.drop (5 * (k + 1))) ++ rest)
    exact ⟨m', (runs_add_of_runs hbits 10).trans hbit⟩

/-- The SAMPLE whose 5 * `n` captures come: it ends with the voted word, and its command goes on. -/
theorem runs_sample (hop : s.op ≠ .idle) (hn : 1 ≤ n.toNat) (hlen : draws.length = 5 * n.toNat)
    (rest : List Event) :
    runs (2 * draws.length) ((s.beginSample n).withPending (drawTurns draws ++ rest)) =
      .next ((s.withPending rest).finishSample n (votedWord draws n.toNat)).afterSample := by
  obtain ⟨k, hk⟩ : ∃ k, n.toNat = k + 1 := ⟨n.toNat - 1, by omega⟩
  obtain ⟨m, hbits⟩ := runs_bits (k := k) hop hlen (by omega) rest
  rw [drawTurns_drop] at hbits
  have hnone : draws.drop (5 * (k + 1)) = [] := List.drop_eq_nil_of_le (by omega)
  have hlast := runs_last_bit (w := votedWord draws k) hop hk.symm (length_take_drop (k := k) hlen (by omega)) m
    (drawTurns (draws.drop (5 * (k + 1))) ++ rest)
  rw [show 2 * draws.length = 10 * k + 10 by omega, runs_add_of_runs hbits, hlast, hnone, hk]
  rfl

/-- A stand-alone SAMPLE gives OP back when it ends. -/
theorem finishSample_of_sample (hop : s.op = .idle) (w : Word) :
    (({ s with op := .sample } : State).finishSample n w).afterSample = s.finishSample n w := by
  cases s; subst hop; rfl

end Sys2Proof.Machine

namespace Sys2Proof

open Machine

/-- Settles O27: five draws a bit, by induction on the bits, give the voted word, whose bits are the majorities. -/
theorem sampleDeliversMajorities : Obligations.SampleDeliversMajorities := by
  intro s n draws rest hb hlo hhi hlen
  have hop := State.busy_eq_false.mp hb
  have hword : encode (.sample n) = BitVec.ofNat 16 (0x1000 + n.toNat) := by
    apply BitVec.eq_of_toNat_eq
    rw [encode_sample_toNat, BitVec.toNat_ofNat]; omega
  have haccept := step_writeCmd_of_ok (decode_eq_ok_iff.mpr hword) s (drawTurns draws ++ rest)
  rw [exec_sample_of_legalCount (s := s.withPending (drawTurns draws ++ rest)) hb ⟨hlo, hhi⟩] at haccept
  have hsample := runs_sample (s := { s with op := .sample }) (rest := rest) nofun hlo hlen
  have hend := finishSample_of_sample (n := n) (s := s.withPending rest) hop (votedWord draws n.toNat)
  refine ⟨_, ((runs_add_of_runs (runs_one_of_step haccept) _).trans hsample).trans (congrArg _ hend), rfl, rfl,
    fun i hi => ?_, fun j hj => ?_⟩
  · have hplace : 16 - n.toNat + i + n.toNat = 16 + i := by omega
    exact (votedWord_getLsbD draws hhi (by omega)).trans (by simp [hplace])
  · have hbelow : ¬ 16 ≤ j + n.toNat := by omega
    exact (votedWord_getLsbD draws hhi (by omega)).trans (by simp [hbelow])

end Sys2Proof
end

section
/-! Whole tests: the tally a test keeps, a host-fed test, and the loop of MBRUN over either source
(42_monobit_tester.md R114, R115). -/

namespace Sys2Proof.Machine

variable {s t : State} {total : ℤ} {bits count k : ℕ} {rest : List Event}

/-! ## The tally of a test (42_monobit_tester.md R112, R115) -/

/-- SUM, NBITS and DCNT hold the sum of the contributions, the bits and the words of a test so far. -/
structure Tally (s : State) (total : ℤ) (bits count : ℕ) : Prop where
  sum : s.sum.toInt = total
  nbits : s.nbits.toNat = bits
  dcnt : s.dcnt.toNat = count
  within : total.natAbs ≤ bits
  parity : total % 2 = (bits : ℤ) % 2
  count_le : count ≤ bits

namespace Tally

theorem of_eq (h : Tally s total bits count) (hsum : t.sum = s.sum) (hnbits : t.nbits = s.nbits)
    (hdcnt : t.dcnt = s.dcnt) : Tally t total bits count :=
  { h with
    sum := by rw [hsum]; exact h.sum
    nbits := by rw [hnbits]; exact h.nbits
    dcnt := by rw [hdcnt]; exact h.dcnt }

theorem start (hsum : s.sum = 0#16) (hnbits : s.nbits = 0#16) (hdcnt : s.dcnt = 0#16) : Tally s 0 0 0 where
  sum := by rw [hsum]; rfl
  nbits := by rw [hnbits]; rfl
  dcnt := by rw [hdcnt]; rfl
  within := le_rfl
  parity := rfl
  count_le := le_rfl

/-- An accumulation that fits adds the word of DATA to the tally. -/
theorem accumulate (h : Tally s total bits count) (hwidth : 1 ≤ s.mbbits.toNat)
    (hfit : bits + s.mbbits.toNat ≤ 32767) :
    Tally s.accumulate (total + contrib s.data s.mbbits.toNat) (bits + s.mbbits.toNat) (count + 1) := by
  have hcon := contrib_bounds s.data s.mbbits.toNat
  have hmod := contrib_emod_two s.data s.mbbits.toNat
  have hwithin := h.within
  have hparity := h.parity
  have hle := h.count_le
  exact {
    sum := by
      rw [State.accumulate_sum, h.sum]
      exact BitVec.toInt_ofInt_eq_self (by decide) (by omega) (by omega)
    nbits := by rw [State.accumulate_nbits_toNat (by rw [h.nbits]; exact hfit), h.nbits]
    dcnt := by
      rw [State.accumulate_dcnt, BitVec.toNat_add_of_lt (y := 1#16) (by rw [h.dcnt]; simp; omega), h.dcnt]; rfl
    within := by omega
    parity := by omega
    count_le := by omega }

/-- One draw of a run adds the word just drawn. -/
theorem endDraw (h : Tally s total bits count) (hwidth : 1 ≤ s.mbbits.toNat)
    (hfit : bits + s.mbbits.toNat ≤ 32767) :
    Tally s.endDraw (total + contrib s.data s.mbbits.toNat) (bits + s.mbbits.toNat) (count + 1) :=
  (h.accumulate hwidth hfit).of_eq (by simp) (by simp) (by simp)

end Tally

/-! ## A host-fed test (42_monobit_tester.md R115) -/

/-- What `WR MBBITS, b`, `WR DATA, w` and MBACC do together, the pair being (b, w). -/
def State.feed (s : State) (p : Word × Word) : State := { s with mbbits := p.1, data := p.2 }.accumulate

theorem step_writeReg_of_idle (hb : s.busy = false) {i : RegIndex} (hi : regOf i ≠ .cmd) (v : Word)
    (rest : List Event) :
    step (s.withPending (.write i v :: rest)) = .next ((s.withPending rest).writeReg (regOf i) v) := by
  rw [step_write, memWrite_of_idle (s := s.withPending rest) hb hi]

theorem step_mbacc (hb : s.busy = false) (hfit : s.nbits.toNat + s.mbbits.toNat ≤ 32767) (rest : List Event) :
    step (s.withPending (.write 0#4 0x5000#16 :: rest)) = .next (s.accumulate.withPending rest) :=
  (step_writeCmd_of_ok (decode_encode .mbacc) s rest).trans
    (exec_mbacc_of_fits (s := s.withPending rest) hb hfit)

theorem runs_feed (hb : s.busy = false) {p : Word × Word} (hp : 1 ≤ p.1.toNat ∧ p.1.toNat ≤ 16)
    (hfit : s.nbits.toNat + p.1.toNat ≤ 32767) (rest : List Event) :
    runs 3 (s.withPending (.write 8#4 p.1 :: .write 3#4 p.2 :: .write 0#4 0x5000#16 :: rest)) =
      .next ((s.feed p).withPending rest) := by
  have hwidth := step_writeReg_of_idle hb (i := 8#4) (by decide) p.1 (.write 3#4 p.2 :: .write 0#4 0x5000#16 :: rest)
  rw [show regOf 8#4 = .mbbits from rfl, State.writeReg_mbbits, if_neg (by omega)] at hwidth
  have hword := step_writeReg_of_idle (s := { s with mbbits := p.1 }) hb (i := 3#4) (by decide) p.2
    (.write 0#4 0x5000#16 :: rest)
  have hadd := step_mbacc (s := { s with mbbits := p.1, data := p.2 }) hb hfit rest
  exact (runs_succ_of_step hwidth 2).trans ((runs_succ_of_step hword 1).trans (runs_one_of_step hadd))

theorem Tally.feed (h : Tally s total bits count) {p : Word × Word} (hp : 1 ≤ p.1.toNat)
    (hfit : bits + p.1.toNat ≤ 32767) :
    Tally (s.feed p) (total + contrib p.2 p.1.toNat) (bits + p.1.toNat) (count + 1) :=
  Tally.accumulate (s := { s with mbbits := p.1, data := p.2 }) (h.of_eq rfl rfl rfl) hp hfit

theorem runs_feeds {ws : List (Word × Word)} (hb : s.busy = false) (h : Tally s total bits count)
    (hws : ∀ p ∈ ws, 1 ≤ p.1.toNat ∧ p.1.toNat ≤ 16) (hfit : bits + (ws.map fun p => p.1.toNat).sum ≤ 32767)
    (rest : List Event) :
    runs (3 * ws.length) (s.withPending (feedTurns ws ++ rest)) = .next ((ws.foldl State.feed s).withPending rest) ∧
      Tally (ws.foldl State.feed s) (total + (ws.map fun p => contrib p.2 p.1.toNat).sum)
        (bits + (ws.map fun p => p.1.toNat).sum) (count + ws.length) := by
  induction ws generalizing s total bits count with
  | nil => exact ⟨rfl, by simpa using h⟩
  | cons p ws ih =>
    obtain ⟨hp, hws⟩ := List.forall_mem_cons.mp hws
    rw [List.map_cons, List.sum_cons, ← Nat.add_assoc] at hfit
    have hone := runs_feed hb hp (by rw [h.nbits]; omega) (feedTurns ws ++ rest)
    obtain ⟨hruns, htally⟩ := ih (s := s.feed p) hb (h.feed hp.1 (by omega)) hws hfit
    refine ⟨?_, ?_⟩
    · rw [List.length_cons, Nat.mul_succ, Nat.add_comm]
      exact (runs_add_of_runs hone _).trans hruns
    · simpa only [List.foldl_cons, List.map_cons, List.sum_cons, List.length_cons, ← add_assoc,
        Nat.add_right_comm count] using htally

theorem foldl_feed_frame (ws : List (Word × Word)) (s : State) (hres : s.mbres = .none) :
    ws.foldl State.feed s = { s with
      sum := (ws.foldl State.feed s).sum, nbits := (ws.foldl State.feed s).nbits
      dcnt := (ws.foldl State.feed s).dcnt, mbres := .none
      mbbits := (ws.foldl State.feed s).mbbits, data := (ws.foldl State.feed s).data } := by
  induction ws generalizing s with
  | nil => cases s; subst hres; rfl
  | cons p ws ih => exact ih (s.feed p) rfl

/-! ## The loop of MBRUN (42_monobit_tester.md R114) -/

/-- At the head of MBRUN's loop over `src` with `left` words to draw, as a command of its own or inside SELFTEST. -/
structure InLoop (s : State) (src : Source) (left : ℕ) : Prop where
  command : s.op = .mbrun ∨ s.op = .selftest ∧ s.phase ≠ .samplingSeed
  between : s.sampling = false
  source : s.runsrc = src
  left : s.runcnt.toNat = left

theorem State.blockStep_at_loop_head (hop : s.op ≠ .idle) (hs : s.sampling = false) :
    s.blockStep = if s.runcnt.toNat = 0 then s.endRun else s.stepDrawWord := by
  simp [State.blockStep, State.busy_eq_true.mpr hop, hs]

namespace InLoop

variable {src : Source} {left : ℕ}

theorem busy (h : InLoop s src left) : s.op ≠ .idle := by
  obtain hop | ⟨hop, -⟩ := h.command <;> rw [hop] <;> exact nofun

theorem blockStep_of_words (h : InLoop s src (left + 1)) : s.blockStep = s.stepDrawWord := by
  rw [State.blockStep_at_loop_head h.busy h.between, h.left, if_neg (Nat.succ_ne_zero left)]

theorem runs_end (h : InLoop s src 0) (rest : List Event) :
    runs 1 (s.withPending (.block :: rest)) = .next (s.withPending rest).endRun := by
  have hend : (s.withPending rest).blockStep = (s.withPending rest).endRun :=
    (State.blockStep_at_loop_head (s := s.withPending rest) h.busy h.between).trans (if_pos h.left)
  exact runs_one_of_step ((step_block s rest).trans (congrArg _ hend))

theorem afterSample (h : InLoop s src left) : s.afterSample = s.endDraw := by
  unfold State.afterSample
  obtain hop | ⟨hop, hp⟩ := h.command
  · rw [hop]
  · rw [hop]; exact if_neg hp

theorem endDraw (h : InLoop s src (left + 1)) : InLoop s.endDraw src left where
  command := h.command
  between := s.endDraw_sampling.trans h.between
  source := s.endDraw_runsrc.trans h.source
  left := by
    have hleft := h.left
    rw [State.endDraw_runcnt]; bv_omega

end InLoop

/-! ## Source B (42_monobit_tester.md R114) -/

/-- One turn of MBRUN's loop over source B. -/
def State.streamDraw (s : State) : State := s.advanceStream.endDraw

theorem InLoop.streamDraw (h : InLoop s .stream (k + 1)) : InLoop s.streamDraw .stream k :=
  InLoop.endDraw (s := s.advanceStream) ⟨h.command, h.between, h.source, h.left⟩

theorem InLoop.runs_stream (h : InLoop s .stream k) (rest : List Event) :
    runs k (s.withPending (List.replicate k .block ++ rest)) = .next ((State.streamDraw^[k] s).withPending rest) ∧
      InLoop (State.streamDraw^[k] s) .stream 0 := by
  induction k generalizing s with
  | zero => exact ⟨rfl, h⟩
  | succ k ih =>
    have hturn : step (s.withPending (.block :: (List.replicate k .block ++ rest))) =
        .next (s.streamDraw.withPending (List.replicate k .block ++ rest)) := by
      have hword : (s.withPending (List.replicate k .block ++ rest)).blockStep = _ :=
        InLoop.blockStep_of_words (left := k) ⟨h.command, h.between, h.source, h.left⟩
      rw [step_block, hword, State.stepDrawWord, State.withPending_runsrc, h.source]
      rfl
    obtain ⟨hruns, hloop⟩ := ih h.streamDraw
    exact ⟨(runs_succ_of_step hturn k).trans hruns, hloop⟩

theorem sumOf_cons (b : ℕ) (w : Word) (ws : List Word) : sumOf b (w :: ws) = contrib w b + sumOf b ws :=
  List.sum_cons

theorem Tally.stream (h : Tally s total bits count) (hwidth : 1 ≤ s.mbbits.toNat)
    (hfit : bits + s.mbbits.toNat * k ≤ 32767) :
    Tally (State.streamDraw^[k] s) (total + sumOf s.mbbits.toNat (streamWords k s.lstate))
      (bits + s.mbbits.toNat * k) (count + k) := by
  induction k generalizing s total bits count with
  | zero => simpa [sumOf, streamWords] using h
  | succ k ih =>
    rw [Nat.mul_succ] at hfit
    have hone : Tally s.streamDraw (total + contrib (lcgNext s.lstate) s.mbbits.toNat) (bits + s.mbbits.toNat)
        (count + 1) := Tally.endDraw (s := s.advanceStream) (h.of_eq rfl rfl rfl) hwidth (by simp; omega)
    have hrest := ih hone hwidth (by simp [State.streamDraw]; omega)
    rw [Function.iterate_succ_apply, streamWords, sumOf_cons, ← add_assoc, Nat.mul_succ, Nat.add_comm (_ * k), ← Nat.add_assoc,
      Nat.add_comm k, ← Nat.add_assoc]
    exact hrest

theorem iterate_streamDraw_frame (k : ℕ) (s : State) :
    State.streamDraw^[k] s = { s with
      lstate := lcgIterate k s.lstate, data := (State.streamDraw^[k] s).data, sum := (State.streamDraw^[k] s).sum
      nbits := (State.streamDraw^[k] s).nbits, dcnt := (State.streamDraw^[k] s).dcnt
      mbres := (State.streamDraw^[k] s).mbres, runcnt := (State.streamDraw^[k] s).runcnt } := by
  induction k generalizing s with
  | zero => rfl
  | succ k ih => exact ih s.streamDraw

theorem iterate_streamDraw_data (k : ℕ) (s : State) :
    (State.streamDraw^[k] s).data = if k = 0 then s.data else lcgIterate k s.lstate := by
  cases k with
  | zero => rfl
  | succ k =>
    rw [Function.iterate_succ_apply', if_neg (Nat.succ_ne_zero k), lcgIterate_add, State.streamDraw,
      State.endDraw_data, State.advanceStream_data, iterate_streamDraw_frame]
    rfl

/-! ## Source A (42_monobit_tester.md R114) -/

/-- One turn of MBRUN's loop over source A, the SAMPLE it makes included. -/
def State.hardwareDraw (s : State) (draws : List Bool) : State :=
  (s.finishSample 16#5 (sampledWord draws)).endDraw

theorem State.finishSample_sampling (s : State) (n : BitVec 5) (w : Word) : (s.finishSample n w).sampling = false :=
  State.sampling_eq_false.mpr (.inr le_rfl)

theorem InLoop.finishSample {src : Source} (h : InLoop s src k) (w : Word) :
    InLoop (s.finishSample 16#5 w) src k :=
  ⟨h.command, s.finishSample_sampling 16#5 w, h.source, h.left⟩

theorem InLoop.runs_word (h : InLoop s .hardware (k + 1)) {draws : List Bool} (hlen : draws.length = 80)
    (rest : List Event) :
    runs (1 + 2 * draws.length) (s.withPending (.block :: (drawTurns draws ++ rest))) =
      .next ((s.hardwareDraw draws).withPending rest) := by
  have hbegin : step (s.withPending (.block :: (drawTurns draws ++ rest))) =
      .next ((s.beginSample 16#5).withPending (drawTurns draws ++ rest)) := by
    have hword : (s.withPending (drawTurns draws ++ rest)).blockStep = _ :=
      InLoop.blockStep_of_words (left := k) ⟨h.command, h.between, h.source, h.left⟩
    rw [step_block, hword, State.stepDrawWord, State.withPending_runsrc, h.source]
    rfl
  have hsample := runs_sample (n := 16#5) h.busy (by decide) hlen rest
  have hloop : InLoop ((s.withPending rest).finishSample 16#5 (sampledWord draws)) .hardware (k + 1) :=
    InLoop.finishSample (s := s.withPending rest) ⟨h.command, h.between, h.source, h.left⟩ _
  rw [show (16#5).toNat = 16 from rfl, votedWord_sixteen, hloop.afterSample] at hsample
  exact (runs_add_of_runs (runs_one_of_step hbegin) _).trans hsample

theorem drawTurns_length (ds : List Bool) : (drawTurns ds).length = 2 * ds.length := by
  induction ds with
  | nil => rfl
  | cons b ds ih => rw [drawTurns, List.length_cons, List.length_cons, List.length_cons, ih]; omega

theorem wordTurns_cons_length (draws : List Bool) (words : List (List Bool)) :
    (wordTurns (draws :: words)).length = 1 + 2 * draws.length + (wordTurns words).length := by
  rw [wordTurns, List.length_cons, List.length_append, drawTurns_length]; omega

theorem InLoop.runs_words {words : List (List Bool)} (h : InLoop s .hardware words.length)
    (hlen : ∀ d ∈ words, d.length = 80) (rest : List Event) :
    runs (wordTurns words).length (s.withPending (wordTurns words ++ rest)) =
        .next ((words.foldl State.hardwareDraw s).withPending rest) ∧
      InLoop (words.foldl State.hardwareDraw s) .hardware 0 := by
  induction words generalizing s with
  | nil => exact ⟨rfl, h⟩
  | cons draws words ih =>
    obtain ⟨hdraws, hwords⟩ := List.forall_mem_cons.mp hlen
    have hword := h.runs_word hdraws (wordTurns words ++ rest)
    obtain ⟨hruns, hloop⟩ := ih (InLoop.endDraw (h.finishSample (sampledWord draws))) hwords
    rw [← List.append_assoc] at hword
    rw [wordTurns_cons_length]
    exact ⟨(runs_add_of_runs hword _).trans hruns, hloop⟩

theorem Tally.words {words : List (List Bool)} (h : Tally s total bits count) (hwidth : 1 ≤ s.mbbits.toNat)
    (hfit : bits + s.mbbits.toNat * words.length ≤ 32767) :
    Tally (words.foldl State.hardwareDraw s) (total + sumOf s.mbbits.toNat (words.map sampledWord))
      (bits + s.mbbits.toNat * words.length) (count + words.length) := by
  induction words generalizing s total bits count with
  | nil => simpa [sumOf] using h
  | cons draws words ih =>
    rw [List.length_cons, Nat.mul_succ] at hfit
    have hone : Tally (s.hardwareDraw draws) (total + contrib (sampledWord draws) s.mbbits.toNat)
        (bits + s.mbbits.toNat) (count + 1) :=
      Tally.endDraw (s := s.finishSample 16#5 (sampledWord draws)) (h.of_eq rfl rfl rfl) hwidth
        (show bits + s.mbbits.toNat ≤ 32767 by omega)
    have hrest := ih hone hwidth (show bits + s.mbbits.toNat + s.mbbits.toNat * words.length ≤ 32767 by omega)
    rw [List.map_cons, sumOf_cons, ← add_assoc, List.length_cons, Nat.mul_succ, Nat.add_comm (_ * words.length),
      ← Nat.add_assoc, Nat.add_comm words.length, ← Nat.add_assoc]
    exact hrest

theorem foldl_hardwareDraw_frame (words : List (List Bool)) (s : State) :
    words.foldl State.hardwareDraw s = { s with
      data := (words.foldl State.hardwareDraw s).data, sum := (words.foldl State.hardwareDraw s).sum
      nbits := (words.foldl State.hardwareDraw s).nbits, dcnt := (words.foldl State.hardwareDraw s).dcnt
      mbres := (words.foldl State.hardwareDraw s).mbres, runcnt := (words.foldl State.hardwareDraw s).runcnt
      timer := (words.foldl State.hardwareDraw s).timer, freeCount := (words.foldl State.hardwareDraw s).freeCount
      sr := (words.foldl State.hardwareDraw s).sr, ones := (words.foldl State.hardwareDraw s).ones
      drawj := (words.foldl State.hardwareDraw s).drawj, biti := (words.foldl State.hardwareDraw s).biti
      nreq := (words.foldl State.hardwareDraw s).nreq, snap := (words.foldl State.hardwareDraw s).snap } := by
  induction words generalizing s with
  | nil => rfl
  | cons draws words ih => exact ih (s.hardwareDraw draws)

theorem foldl_hardwareDraw_tcfg (words : List (List Bool)) (s : State) :
    (words.foldl State.hardwareDraw s).timer.tcfg = s.timer.tcfg := by
  induction words generalizing s with
  | nil => rfl
  | cons draws words ih => exact ih (s.hardwareDraw draws)

theorem foldl_hardwareDraw_data (words : List (List Bool)) (s : State) :
    (words.foldl State.hardwareDraw s).data = ((words.map sampledWord).getLast?).getD s.data := by
  induction words generalizing s with
  | nil => rfl
  | cons draws words ih =>
    rw [List.foldl_cons, ih, List.map_cons, List.getLast?_cons]
    rfl

/-! ## MBRUN accepted and ended -/

theorem step_mbrun (hb : s.busy = false) (hfit : s.mbbits.toNat * s.mbdraws.toNat ≤ 32767) {v : Word} {src : Source}
    (hv : encode (.mbrun src) = v) (rest : List Event) :
    step (s.withPending (.write 0#4 v :: rest)) = .next ((s.acceptMbrun src).withPending rest) :=
  (step_writeCmd_of_ok (decode_eq_ok_iff.mpr hv) s rest).trans
    (exec_mbrun_of_fits (s := s.withPending rest) hb hfit src)

theorem InLoop.runs_mbrun_end {src : Source} (h : InLoop s src 0) (hop : s.op = .mbrun) (rest : List Event) :
    runs 1 (s.withPending (.block :: rest)) = .next { (s.withPending rest).judge with op := .idle } := by
  rw [h.runs_end, State.endRun, State.withPending_op, hop]

theorem verdictOf_eq (sum bound : Word) :
    verdictOf sum bound = if bound.toNat < sum.toInt.natAbs then .fail else .pass := rfl

theorem MachineInv.acceptMbrun_inLoop (h : MachineInv s) (hb : s.busy = false) (src : Source) :
    InLoop (s.acceptMbrun src) src s.mbdraws.toNat :=
  ⟨.inl rfl, State.sampling_eq_false.mpr (.inr (h.idleHasNone (State.busy_eq_false.mp hb))), rfl, rfl⟩

theorem acceptMbrun_tally (s : State) (src : Source) : Tally (s.acceptMbrun src) 0 0 0 := .start rfl rfl rfl

end Sys2Proof.Machine

namespace Sys2Proof

open Machine

/-- Settles O40: MBCLR starts the tally at 0 and each fed word adds to it. -/
theorem hostFedTestSum : Obligations.HostFedTestSum := by
  intro s ws rest hb hws hfit
  have hclear : step (s.withPending (.write 0#4 0x4000#16 :: (feedTurns ws ++ rest))) =
      .next (s.clearTest.withPending (feedTurns ws ++ rest)) :=
    (step_writeCmd_of_ok (decode_encode .mbclr) s _).trans (exec_of_idle (s := s.withPending (feedTurns ws ++ rest)) hb .mbclr)
  have hstart : Tally s.clearTest 0 0 0 := .start rfl rfl rfl
  obtain ⟨hruns, h⟩ := runs_feeds (s := s.clearTest) hb hstart hws (by omega) rest
  simp only [zero_add] at h
  have hframe := foldl_feed_frame ws s.clearTest rfl
  generalize ws.foldl State.feed s.clearTest = u at hruns h hframe
  refine ⟨_, (runs_add_of_runs (runs_one_of_step hclear) _).trans hruns, ?_, h.sum, h.nbits, h.dcnt, ?_, ?_⟩
  · rw [hframe]; rfl
  · exact (h.sum ▸ h.nbits ▸ h.within :)
  · exact (h.sum ▸ h.nbits ▸ h.parity :)

/-- Settles O41: the loop draws MBDRAWS words of the stream into the tally, and the last turn judges it. -/
theorem mbrunStreamCompletes : Obligations.MbrunStreamCompletes := by
  intro s rest hinv hb hfit
  have hop := State.busy_eq_false.mp hb
  have haccept := step_mbrun hb hfit (v := 0x7001#16) (src := .stream) rfl
    (List.replicate (s.mbdraws.toNat + 1) .block ++ rest)
  rw [List.replicate_succ', List.append_assoc] at haccept ⊢
  obtain ⟨hruns, hloop⟩ := (hinv.acceptMbrun_inLoop hb .stream).runs_stream ([.block] ++ rest)
  have h := (acceptMbrun_tally s .stream).stream (k := s.mbdraws.toNat) hinv.widthLegal.1 (by simpa using hfit)
  simp only [zero_add] at h
  have hframe := iterate_streamDraw_frame s.mbdraws.toNat (s.acceptMbrun .stream)
  have hdata := iterate_streamDraw_data s.mbdraws.toNat (s.acceptMbrun .stream)
  generalize State.streamDraw^[s.mbdraws.toNat] (s.acceptMbrun .stream) = u at hruns hloop h hframe hdata
  have hlstate : u.lstate = lcgIterate s.mbdraws.toNat s.lstate := congrArg State.lstate hframe
  have hjudge := hloop.runs_mbrun_end (congrArg State.op hframe) rest
  have hbound : u.mbbound = s.mbbound := (congrArg State.mbbound hframe :)
  refine ⟨_, (runs_add_of_runs (runs_one_of_step haccept) _).trans
    ((runs_add_of_runs hruns 1).trans hjudge), ?frame, hlstate, ?data,
    h.sum, h.nbits, BitVec.eq_of_toNat_eq h.dcnt, ?verdict⟩
  case frame => rw [hframe, ← hop]; rfl
  case data => exact hdata.trans (congrArg (fun l => if s.mbdraws.toNat = 0 then s.data else l) hlstate.symm)
  case verdict => exact (verdictOf_eq u.sum u.mbbound).trans (by rw [hbound]; rfl)

/-- Settles O42: the loop samples MBDRAWS words into the tally, and the last turn judges it. -/
theorem mbrunHardwareCompletes : Obligations.MbrunHardwareCompletes := by
  intro s words rest hinv hb hfit hcount hlen
  have hop := State.busy_eq_false.mp hb
  have haccept := step_mbrun hb hfit (v := 0x7000#16) (src := .hardware) rfl (wordTurns words ++ .block :: rest)
  have hhead := hinv.acceptMbrun_inLoop hb .hardware
  rw [← hcount] at hhead
  obtain ⟨hruns, hloop⟩ := hhead.runs_words hlen (.block :: rest)
  have h := (acceptMbrun_tally s .hardware).words (words := words) hinv.widthLegal.1
    (by simpa [hcount] using hfit)
  simp only [zero_add, hcount] at h
  have hframe := foldl_hardwareDraw_frame words (s.acceptMbrun .hardware)
  have hdata := foldl_hardwareDraw_data words (s.acceptMbrun .hardware)
  have htcfg := foldl_hardwareDraw_tcfg words (s.acceptMbrun .hardware)
  generalize words.foldl State.hardwareDraw (s.acceptMbrun .hardware) = u at hruns hloop h hframe hdata htcfg
  have hjudge := hloop.runs_mbrun_end (congrArg State.op hframe) rest
  have hbound : u.mbbound = s.mbbound := (congrArg State.mbbound hframe :)
  refine ⟨_, (runs_add_of_runs (runs_one_of_step haccept) _).trans
    ((runs_add_of_runs hruns 1).trans hjudge), ?frame, htcfg, hdata,
    h.sum, h.nbits, BitVec.eq_of_toNat_eq h.dcnt, ?verdict⟩
  case frame => rw [hframe, ← hop]; rfl
  case verdict => exact (verdictOf_eq u.sum u.mbbound).trans (by rw [hbound]; rfl)

end Sys2Proof
end

section
/-! The self-test from its acceptance to Done: the seed's SAMPLE, the hardware-source test under CFG_A and the stream
test under CFG_B (43_selftest_runner.md R131, R133). -/

namespace Sys2Proof.Machine

variable {s : State} {seed : List Bool} {words : List (List Bool)} {k : ℕ} {rest : List Event}

/-! ## The seed's SAMPLE -/

/-- The self-test once its seed is sampled: the seed loaded, the hardware-source test begun. -/
def State.seeded (s : State) (seed : List Bool) : State :=
  (({ s with op := .selftest, phase := .samplingSeed } : State).finishSample 16#5
    (sampledWord seed)).enterHardwareTest

theorem State.afterSample_of_seed (hop : s.op = .selftest) (hp : s.phase = .samplingSeed) :
    s.afterSample = s.enterHardwareTest := by
  rw [State.afterSample, hop]; exact if_pos hp

theorem runs_seed (hb : s.busy = false) (hp : s.phase = .idle) (hlen : seed.length = 80) (rest : List Event) :
    runs (1 + (drawTurns seed).length) (s.withPending (.write 0#4 0x8000#16 :: (drawTurns seed ++ rest))) =
      .next ((s.seeded seed).withPending rest) := by
  have haccept := (step_writeCmd_of_ok (decode_encode .selftest) s (drawTurns seed ++ rest)).trans
    (exec_selftest_of_fresh (s := s.withPending (drawTurns seed ++ rest)) hb hp)
  have hsample := runs_sample (s := { s with op := .selftest, phase := .samplingSeed }) (n := 16#5) nofun
    (by decide) hlen rest
  rw [show (16#5).toNat = 16 from rfl, votedWord_sixteen, State.afterSample_of_seed rfl rfl] at hsample
  rw [drawTurns_length]
  exact (runs_add_of_runs (runs_one_of_step haccept) _).trans hsample

theorem State.seeded_inLoop (s : State) (seed : List Bool) : InLoop (s.seeded seed) .hardware Config.cfgA.draws where
  command := .inr ⟨rfl, nofun⟩
  between := (State.enterHardwareTest_sampling _).trans (State.finishSample_sampling _ _ _)
  source := rfl
  left := Config.cfgA_legal.toNat_draws

theorem State.seeded_tally (s : State) (seed : List Bool) : Tally (s.seeded seed) 0 0 0 := .start rfl rfl rfl

/-! ## The two tests -/

theorem InLoop.runs_hardwareTest (h : InLoop s .hardware words.length) (hop : s.op = .selftest)
    (hp : s.phase = .testingHardwareSource) (hlen : ∀ d ∈ words, d.length = 80) (rest : List Event) :
    runs ((wordTurns words).length + 1) (s.withPending (wordTurns words ++ .block :: rest)) =
      .next ((words.foldl State.hardwareDraw s).enterStreamTest.withPending rest) := by
  obtain ⟨hruns, hloop⟩ := h.runs_words hlen (.block :: rest)
  have hframe := foldl_hardwareDraw_frame words s
  generalize words.foldl State.hardwareDraw s = u at hruns hloop hframe ⊢
  have hop' : u.op = .selftest := (congrArg State.op hframe).trans hop
  have hp' : u.phase = .testingHardwareSource := (congrArg State.phase hframe).trans hp
  rw [runs_add_of_runs hruns, hloop.runs_end, State.endRun, State.withPending_op, State.withPending_phase, hop', hp']
  rfl

theorem InLoop.runs_streamTest (h : InLoop s .stream k) (hop : s.op = .selftest) (hp : s.phase = .testingStream)
    (rest : List Event) :
    runs (k + 1) (s.withPending (List.replicate (k + 1) .block ++ rest)) =
      .next ((State.streamDraw^[k] s).enterDone.withPending rest) := by
  rw [List.replicate_succ', List.append_assoc]
  obtain ⟨hruns, hloop⟩ := h.runs_stream ([.block] ++ rest)
  have hframe := iterate_streamDraw_frame k s
  generalize State.streamDraw^[k] s = u at hruns hloop hframe ⊢
  have hop' : u.op = .selftest := (congrArg State.op hframe).trans hop
  have hp' : u.phase = .testingStream := (congrArg State.phase hframe).trans hp
  have hend := hloop.runs_end rest
  rw [State.endRun, State.withPending_op, State.withPending_phase, hop', hp'] at hend
  exact (runs_add_of_runs hruns 1).trans hend

theorem InLoop.enterStreamTest {src : Source} {left : ℕ} (h : InLoop s src left) (hop : s.op = .selftest) :
    InLoop s.enterStreamTest .stream Config.cfgB.draws where
  command := .inr ⟨hop, by simp⟩
  between := by simpa [State.sampling, State.busy] using h.between
  source := s.enterStreamTest_runsrc
  left := by rw [State.enterStreamTest_runcnt, Config.cfgB_legal.toNat_draws]

/-! ## What the loops of the two tests leave -/

section
variable (words : List (List Bool)) (k : ℕ) (s : State)

@[simp] theorem foldl_hardwareDraw_op : (words.foldl State.hardwareDraw s).op = s.op := by
  rw [foldl_hardwareDraw_frame]

@[simp] theorem foldl_hardwareDraw_err : (words.foldl State.hardwareDraw s).err = s.err := by
  rw [foldl_hardwareDraw_frame]

@[simp] theorem foldl_hardwareDraw_lstate : (words.foldl State.hardwareDraw s).lstate = s.lstate := by
  rw [foldl_hardwareDraw_frame]

@[simp] theorem foldl_hardwareDraw_mbbound : (words.foldl State.hardwareDraw s).mbbound = s.mbbound := by
  rw [foldl_hardwareDraw_frame]

@[simp] theorem iterate_streamDraw_lstate :
    (State.streamDraw^[k] s).lstate = lcgIterate k s.lstate := by
  rw [iterate_streamDraw_frame]

@[simp] theorem iterate_streamDraw_err : (State.streamDraw^[k] s).err = s.err := by
  rw [iterate_streamDraw_frame]

@[simp] theorem iterate_streamDraw_timer : (State.streamDraw^[k] s).timer = s.timer := by
  rw [iterate_streamDraw_frame]

@[simp] theorem iterate_streamDraw_fa : (State.streamDraw^[k] s).fa = s.fa := by
  rw [iterate_streamDraw_frame]

@[simp] theorem iterate_streamDraw_suma : (State.streamDraw^[k] s).suma = s.suma := by
  rw [iterate_streamDraw_frame]

@[simp] theorem iterate_streamDraw_mbbits : (State.streamDraw^[k] s).mbbits = s.mbbits := by
  rw [iterate_streamDraw_frame]

@[simp] theorem iterate_streamDraw_mbdraws : (State.streamDraw^[k] s).mbdraws = s.mbdraws := by
  rw [iterate_streamDraw_frame]

@[simp] theorem iterate_streamDraw_mbbound : (State.streamDraw^[k] s).mbbound = s.mbbound := by
  rw [iterate_streamDraw_frame]

end

/-! ## The self-test after its hardware-source test, and at Done -/

/-- The self-test when its hardware-source test over `words` has ended and its stream test begins. -/
def State.testedA (s : State) (seed : List Bool) (words : List (List Bool)) : State :=
  (words.foldl State.hardwareDraw (s.seeded seed)).enterStreamTest

/-- The self-test at Done. -/
def State.testedB (s : State) (seed : List Bool) (words : List (List Bool)) : State :=
  (State.streamDraw^[Config.cfgB.draws] (s.testedA seed words)).enterDone

section
variable (s seed words)

@[simp] theorem State.testedA_err : (s.testedA seed words).err = s.err := by
  simp [State.testedA, State.seeded, State.finishSample]

@[simp] theorem State.testedA_tcfg : (s.testedA seed words).timer.tcfg = s.timer.tcfg := by
  simp [State.testedA, foldl_hardwareDraw_tcfg, State.seeded, State.finishSample]

@[simp] theorem State.testedA_lstate : (s.testedA seed words).lstate = sampledWord seed := by
  simp [State.testedA, State.seeded, State.finishSample]

@[simp] theorem State.testedA_mbbits : (s.testedA seed words).mbbits.toNat = Config.cfgB.bits := by
  rw [State.testedA, State.enterStreamTest_mbbits, Config.cfgB_legal.toNat_bits]

@[simp] theorem State.testedA_mbdraws : (s.testedA seed words).mbdraws.toNat = Config.cfgB.draws := by
  rw [State.testedA, State.enterStreamTest_mbdraws, Config.cfgB_legal.toNat_draws]

@[simp] theorem State.testedA_mbbound : (s.testedA seed words).mbbound.toNat = Config.cfgB.bound := by
  rw [State.testedA, State.enterStreamTest_mbbound, Config.cfgB_legal.toNat_bound]

theorem State.testedA_fa :
    (s.testedA seed words).fa = decide (Config.cfgA.bound < (s.testedA seed words).suma.toInt.natAbs) := by
  rw [State.testedA, State.enterStreamTest_fa, decide_verdictOf_eq_fail, foldl_hardwareDraw_mbbound,
    State.enterStreamTest_suma, State.seeded, State.enterHardwareTest_mbbound, Config.cfgA_legal.toNat_bound]

end

theorem State.testedA_suma (s : State) (seed : List Bool) (hcount : words.length = Config.cfgA.draws) :
    (s.testedA seed words).suma.toInt = sumOf Config.cfgA.bits (words.map sampledWord) := by
  have hA := Config.cfgA_legal
  have hbits : (s.seeded seed).mbbits.toNat = Config.cfgA.bits := hA.toNat_bits
  have htally := (s.seeded_tally seed).words (words := words) (by rw [hbits]; exact hA.bits.1)
    (by rw [hbits, hcount, Nat.zero_add]; exact hA.length)
  rw [State.testedA, State.enterStreamTest_suma, htally.sum, hbits, zero_add]

theorem State.testedB_sumb (s : State) (seed : List Bool) (words : List (List Bool)) :
    (s.testedB seed words).sumb.toInt =
      sumOf Config.cfgB.bits (streamWords Config.cfgB.draws (sampledWord seed)) := by
  have hB := Config.cfgB_legal
  have hstart : Tally (s.testedA seed words) 0 0 0 := .start (by simp [State.testedA]) (by simp [State.testedA])
    (by simp [State.testedA])
  have htally := hstart.stream (k := Config.cfgB.draws) (by rw [State.testedA_mbbits]; exact hB.bits.1)
    (by rw [State.testedA_mbbits, Nat.zero_add]; exact hB.length)
  rw [State.testedB, State.enterDone_sumb, htally.sum, State.testedA_mbbits, State.testedA_lstate, zero_add]

/-- STATUS at Done tells, bit by bit, which recorded sum exceeds its bound (10_state.md R23). -/
theorem State.testedB_status (s : State) (seed : List Bool) (words : List (List Bool)) :
    (s.testedB seed words).status = publishedStatus
      (decide (Config.cfgA.bound < (s.testedB seed words).suma.toInt.natAbs))
      (decide (Config.cfgB.bound < (s.testedB seed words).sumb.toInt.natAbs)) := by
  simp [State.testedB, decide_verdictOf_eq_fail, State.testedA_fa]

/-! ## The run to Done -/

theorem runs_selftest (hb : s.busy = false) (hp : s.phase = .idle) (hseed : seed.length = 80)
    (hcount : words.length = Config.cfgA.draws) (hlen : ∀ d ∈ words, d.length = 80) (rest : List Event) :
    runs (1 + (drawTurns seed).length + (wordTurns words).length + 1 + (Config.cfgB.draws + 1)) (s.withPending
        (.write 0#4 0x8000#16 :: (drawTurns seed ++ (wordTurns words ++
          .block :: (List.replicate (Config.cfgB.draws + 1) .block ++ rest))))) =
      .next ((s.testedB seed words).withPending rest) := by
  have hloop := s.seeded_inLoop seed
  rw [← hcount] at hloop
  have hloop' : InLoop (s.testedA seed words) .stream Config.cfgB.draws :=
    (hloop.runs_words hlen rest).2.enterStreamTest (by rw [foldl_hardwareDraw_op]; rfl)
  have hruns := runs_seed hb hp hseed
    (wordTurns words ++ .block :: (List.replicate (Config.cfgB.draws + 1) .block ++ rest))
  have htestA := hloop.runs_hardwareTest rfl rfl hlen (List.replicate (Config.cfgB.draws + 1) .block ++ rest)
  have hopA : (s.testedA seed words).op = .selftest := by
    rw [State.testedA, State.enterStreamTest_op, foldl_hardwareDraw_op]; rfl
  have htestB := hloop'.runs_streamTest hopA (State.enterStreamTest_phase _) rest
  rw [Nat.add_assoc (1 + (drawTurns seed).length)]
  exact (runs_add_of_runs ((runs_add_of_runs hruns _).trans htestA) _).trans htestB

end Sys2Proof.Machine

namespace Sys2Proof

open Machine

/-- Settles O43: the seed, the test of the sampled words under CFG_A and the test of the stream from the seed under
CFG_B, one run after the other; each test's tally is what its end records. -/
theorem selftestCompletes : Obligations.SelftestCompletes := by
  intro s seed words rest hb hp hseed hcount hlen
  have hstatus := s.testedB_status seed words
  obtain ⟨hfailA, hfailB⟩ := publishedStatus_getLsbD
    (decide (Config.cfgA.bound < (s.testedB seed words).suma.toInt.natAbs))
    (decide (Config.cfgB.bound < (s.testedB seed words).sumb.toInt.natAbs))
  rw [← hstatus] at hfailA hfailB
  refine ⟨_, runs_selftest hb hp hseed hcount hlen rest, rfl, rfl, rfl, rfl, ?err, ?tcfg, ?suma,
    s.testedB_sumb seed words, ?lstate, ?sum, hfailA, hfailB, ?mbbits, ?mbdraws, ?mbbound⟩
  case err => simp [State.testedB]
  case tcfg => simp [State.testedB]
  case suma => simpa [State.testedB] using s.testedA_suma seed hcount
  case lstate => simp [State.testedB]
  case sum => simp [State.testedB]
  case mbbits => simp [State.testedB]
  case mbdraws => simp [State.testedB]
  case mbbound => simp [State.testedB]

end Sys2Proof
end
